-- ==== Sys2Proof/Word.lean ====
section
/-! DEFINITION. The words of the CJ640: the identifiers of the spec's table of identifiers (00_scope.md 0.6)
and the bytes of ring messages. Quantities that the manual adds and compares (thicknesses, volumes, counts)
are `Nat` or `Int`, not words. -/

namespace Sys2Proof

/-- One byte of a ring message. -/
abbrev Byte := BitVec 8

/-- A two-byte field carried as such: a cycle number, a mark number, an alert detail. -/
abbrev Word := BitVec 16

/-- A node number as it stands in a message header or the line map (0..63). -/
abbrev Node := BitVec 8

/-- A block, case or jacket serial; 0 is untracked. -/
abbrev Serial := BitVec 32

/-- A title key; 0 marks an empty slot. -/
abbrev TitleKey := BitVec 24

/-- A case key or a jacket key. -/
abbrev ItemKey := BitVec 16

/-- A count that saturates at `top` (00_scope.md 0.6, "saturating"). -/
def satAdd (top n k : Nat) : Nat := min top (n + k)

end Sys2Proof
end

