-- ==== Sys2Proof/Machine/Table.lean ====
section
/-! DEFINITION. A table of a fixed number of like things (the slots of a bank, the recipes, the carries):
a list together with the proof of its length, so that an index in range always names an entry. -/

namespace Sys2Proof.Machine

/-- `n` entries of type `α`, numbered from 0. -/
structure Table (α : Type) (n : Nat) where
  list : List α
  len : list.length = n
  deriving DecidableEq, Repr

/-- The entry numbered `i`. -/
def Table.get {α : Type} {n : Nat} (t : Table α n) (i : Fin n) : α :=
  t.list.get (i.cast t.len.symm)

/-- The table with entry `i` replaced. -/
def Table.set {α : Type} {n : Nat} (t : Table α n) (i : Fin n) (x : α) : Table α n :=
  ⟨t.list.set i x, by simp [t.len]⟩

/-- The table that holds `x` at every index. -/
def Table.fill {α : Type} (n : Nat) (x : α) : Table α n :=
  ⟨List.replicate n x, List.length_replicate⟩

/-- `f` applied to every entry. -/
def Table.map {α β : Type} {n : Nat} (f : α → β) (t : Table α n) : Table β n :=
  ⟨t.list.map f, by simp [t.len]⟩

/-- The records `xs` written to successive indices from `i` on, the index after the last being 0. -/
def Table.setFrom {α : Type} {n : Nat} [NeZero n] (t : Table α n) (i : Nat) : List α → Table α n
  | [] => t
  | x :: xs => (t.set (Fin.ofNat n i) x).setFrom (i + 1) xs

/-- The `k` entries at successive indices from `i` on, the index after the last being 0. -/
def Table.getFrom {α : Type} {n : Nat} [NeZero n] (t : Table α n) (i : Nat) : Nat → List α
  | 0 => []
  | k + 1 => t.get (Fin.ofNat n i) :: t.getFrom (i + 1) k

end Sys2Proof.Machine
end

