-- ==== Sys2Proof/Machine/Stored.lean ====
section
/-! DEFINITION. The contents of the seven store groups (11_stored_settings_and_start_up.md Table 11-1). A field that a
record of Table 9-5 carries in a byte and that is not every byte is held as that byte, so that a stored value may lie
outside its range (R170). -/

namespace Sys2Proof.Machine

/-- The calibration record (Table 2-1). -/
structure Calibration where
  ofs : Int
  brk : Nat
  g1 : Nat
  g2 : Nat
  tref : Nat
  tco : Int
  tso : Int
  deriving DecidableEq, Repr

/-- The calibration record and its valid flag (R19). -/
structure CaliperUnit where
  record : Calibration
  valid : Bool
  deriving DecidableEq, Repr

/-- A comparator's configuration as its record carries it (R95, Tables 6-5 and 9-5). -/
structure ComparatorRecord where
  direction : Byte
  enable : Byte
  confirm : Nat
  onThreshold : Int
  offThreshold : Int
  deriving DecidableEq, Repr

/-- The LIMITS record (R49, R61, R102; Table 9-5). -/
structure Limits where
  bqLow : Nat
  bqHigh : Nat
  cqLow : Nat
  cqHigh : Nat
  jqLow : Nat
  jqHigh : Nat
  caseWindow : Nat
  jacketWindow : Nat
  casingWait : Nat
  pressWait : Nat
  jacketWait : Nat
  fitFail : Nat
  stale : Nat
  deriving DecidableEq, Repr

/-- The Line Map: entry r - 1 is the node of role r; 0 is unassigned (R155). -/
abbrev LineMap := Table Node 9

/-- A dose recipe (Table 2-3); `shot` is S and `margin` is m. -/
structure Recipe where
  filmLeft : Nat
  filmRight : Nat
  shot : Nat
  margin : Nat
  deriving DecidableEq, Repr

/-- One position of a press profile as its record carries it (Tables 5-2 and 9-5). -/
structure EntryRecord where
  pressure : Byte
  heat : Byte
  deriving DecidableEq, Repr

/-- A press profile as its record carries it, positions 1 to 6 (R87, Table 9-5). -/
structure ProfileRecord where
  e1 : EntryRecord
  e2 : EntryRecord
  e3 : EntryRecord
  e4 : EntryRecord
  e5 : EntryRecord
  e6 : EntryRecord
  deriving DecidableEq, Repr

/-- The entries, position 1 first. -/
def ProfileRecord.entries (p : ProfileRecord) : List EntryRecord := [p.e1, p.e2, p.e3, p.e4, p.e5, p.e6]

/-- The recipes and profiles of group 6 (Table 11-1). -/
structure RecipeGroup where
  recipes : Table Recipe 32
  profiles : Table ProfileRecord 64
  deriving DecidableEq, Repr

/-- The contents of the seven groups (Table 11-1): what a STORE takes its snapshot of (R172). -/
structure Settings where
  node : Node
  caliper : CaliperUnit
  comparators : Table ComparatorRecord 4
  limits : Limits
  lineMap : LineMap
  recipes : RecipeGroup
  protect : Byte
  deriving DecidableEq, Repr

end Sys2Proof.Machine
end

