-- ==== Sys2Proof/Syntax.lean ====
section
/-! DEFINITION. The commands of the CJ640: one constructor for each row of spec/opcode_table.json.

The part fetches nothing: a command is an event at the part. A row that a ring message brings about carries
the bytes of that message which the row itself does not fix, wrong ones included, so that every message the
ring can deliver can be commanded. -/

namespace Sys2Proof

/-- The header bytes of a message that no row fixes: destination, source and tag (09_the_line_ring.md Table 9-1). -/
structure Envelope where
  dst : Node
  src : Node
  tag : Byte
  deriving DecidableEq, Repr

/-- A ring message without its CRC; LEN is the length of the payload (R145, R146). -/
structure Message where
  dst : Node
  src : Node
  kind : Byte
  tag : Byte
  payload : List Byte
  deriving DecidableEq, Repr

/-- The message of kind code `kind` and payload `payload` that travels under header bytes `h`. -/
def Envelope.message (h : Envelope) (kind : Byte) (payload : List Byte) : Message :=
  ⟨h.dst, h.src, kind, h.tag, payload⟩

/-- What reading the words of a store group finds (R170): no error, only single-bit errors (corrected), or an
uncorrectable word. -/
inductive CellHealth where
  | clean
  | corrected
  | uncorrectable
  deriving DecidableEq, Repr

/-- What has happened to the cells of one store group since they were last read: the new errors that the check code
shows, and the values the words now read as when errors it does not show have changed them (log 14). -/
structure GroupCells (α : Type) where
  health : CellHealth
  reads : Option α
  deriving DecidableEq, Repr

/-- What has happened to the cells of the seven store groups since they were last read (Table 11-1). -/
structure CellReport where
  node : GroupCells Node
  calibration : GroupCells Machine.CaliperUnit
  comparators : GroupCells (Machine.Table Machine.ComparatorRecord 4)
  limits : GroupCells Machine.Limits
  lineMap : GroupCells Machine.LineMap
  recipes : GroupCells Machine.RecipeGroup
  protect : GroupCells Byte
  deriving DecidableEq, Repr

/-- The level of a pin. -/
inductive Level where
  | low
  | high
  deriving DecidableEq, Repr

/-- The commands. In the rows that a message brings about, `h` is the header, `payload` the whole payload, and
`rest` the payload behind the byte the row fixes (a request code or a region code). -/
inductive Instr where
  /-- POWER_ON_RESET (R144): supplies lost or RESET_N low; `written` is how many groups a STORE in flight had
  completely written by then (R174). -/
  | powerOnReset (written : Nat)
  /-- POWER_ON_LOAD (R170): RESET_N rises; `cells` is what has happened to the store's cells since the last look. -/
  | powerOnLoad (cells : CellReport)
  /-- LOAD_COMPLETE (R170): the power-on load ends. -/
  | loadComplete
  /-- CARRIER_FOUND (R148): valid line symbols appear on RING_IN. -/
  | carrierFound
  /-- CARRIER_LOST (R148): line symbols cease on RING_IN. -/
  | carrierLost
  /-- BAD_MESSAGE (R147): an end delimiter after `bytes`, which fail a test of R147. -/
  | badMessage (bytes : List Byte)
  /-- CONSECUTIVE_BAD_LIMIT (R148): the bad message `bytes` whose arrival brings the consecutive-bad count to 8. -/
  | consecutiveBadLimit (bytes : List Byte)
  /-- FORWARD_MESSAGE (R149): a good message, in the first place one for another node or a broadcast. -/
  | forwardMessage (m : Message)
  /-- BLOCK_SIGHT (R43): a SIGHT whose role is not 2 or 3. -/
  | blockSight (h : Envelope) (payload : List Byte)
  /-- CASE_SIGHT (R45): a SIGHT of role 2. -/
  | caseSight (h : Envelope) (payload : List Byte)
  /-- JACKET_SIGHT (R46): a SIGHT of role 3. -/
  | jacketSight (h : Envelope) (payload : List Byte)
  /-- CASING_CYCLE (R66): a CYCLE whose role is not 8 or 9. -/
  | casingCycle (h : Envelope) (payload : List Byte)
  /-- ITEM_LOST (R64): the CYCLE at which a head's absent count reaches its limit. -/
  | itemLost (h : Envelope) (payload : List Byte)
  /-- STARVED (R65): the CYCLE at which a held head's starved count reaches its limit. -/
  | starved (h : Envelope) (payload : List Byte)
  /-- FIT_FAIL_LIMIT (R69): the casing CYCLE at which a block's fit-fail count reaches its limit. -/
  | fitFailLimit (h : Envelope) (payload : List Byte)
  /-- PRESS_INDEX (R81): a CYCLE of role 8. -/
  | pressIndex (h : Envelope) (payload : List Byte)
  /-- SENSE_STALE (R101): the press CYCLE at which a bank's stale counter reaches the stale limit. -/
  | senseStale (h : Envelope) (payload : List Byte)
  /-- JACKET_CYCLE (R107): a CYCLE of role 9. -/
  | jacketCycle (h : Envelope) (payload : List Byte)
  /-- DRAIN_COMPLETE (R138): the message (a CYCLE or a CTRL DRAIN) whose event completes a drain. -/
  | drainComplete (m : Message)
  /-- SENSE (R96). -/
  | sense (h : Envelope) (payload : List Byte)
  /-- IRON_ALARM_ON (R97): the SENSE that turns a comparator ON. -/
  | ironAlarmOn (h : Envelope) (payload : List Byte)
  /-- IRON_ALARM_OFF (R98): the SENSE that turns a comparator OFF. -/
  | ironAlarmOff (h : Envelope) (payload : List Byte)
  /-- MARK (R13). -/
  | mark (h : Envelope) (payload : List Byte)
  /-- START (R131): CTRL 0x01. -/
  | start (h : Envelope) (rest : List Byte)
  /-- HALT (R135): CTRL 0x02. -/
  | halt (h : Envelope) (rest : List Byte)
  /-- RESUME (R136): CTRL 0x03. -/
  | resume (h : Envelope) (rest : List Byte)
  /-- DRAIN (R137): CTRL 0x04. -/
  | drain (h : Envelope) (rest : List Byte)
  /-- ABORT (R139): CTRL 0x05. -/
  | abort (h : Envelope) (rest : List Byte)
  /-- PURGE (R140): CTRL 0x06. -/
  | purge (h : Envelope) (rest : List Byte)
  /-- CLEAR (R141): CTRL 0x07. -/
  | clear (h : Envelope) (rest : List Byte)
  /-- RESET (R142): CTRL 0x08. -/
  | reset (h : Envelope) (rest : List Byte)
  /-- ARM (R10): CTRL 0x10. -/
  | arm (h : Envelope) (rest : List Byte)
  /-- DISARM (R11): CTRL 0x11. -/
  | disarm (h : Envelope) (rest : List Byte)
  /-- COPY (R12): CTRL 0x12. -/
  | copy (h : Envelope) (rest : List Byte)
  /-- STORE (R172): CTRL 0x18. -/
  | store (h : Envelope) (rest : List Byte)
  /-- STORE_DONE (R173): the store in flight ends. -/
  | storeDone
  /-- PROOF (R156): CTRL 0x19. -/
  | proof (h : Envelope) (rest : List Byte)
  /-- PROOF_RETURN (R157): a PROOF message arrives. -/
  | proofReturn (h : Envelope) (payload : List Byte)
  /-- PROOF_TIMEOUT (R157): 50 ms have passed since the proof timer started. -/
  | proofTimeout
  /-- STRIPPED_ORDER (R151): an own order (FEED, CASEIN, PRESS or JACKET) arrives. -/
  | strippedOrder (m : Message)
  /-- TRANSMIT_COMPLETE (R153): the transmitter finishes the message it is sending. -/
  | transmitComplete
  /-- UNKNOWN_KIND (R150): a message arrives whose kind code is in no table; it also stands for a message of any
  kind that no other row carries (a CTRL of wrong form or unknown code, a consumed TALLY). -/
  | unknownKind (m : Message)
  /-- TITLE_WRITE (R6): WRITE to region 0x01. -/
  | titleWrite (h : Envelope) (rest : List Byte)
  /-- PROTECT_WRITE (R9): WRITE to region 0x09, with the level of GUARD at that moment. -/
  | protectWrite (h : Envelope) (guard : Level) (rest : List Byte)
  /-- CALIBRATION_WRITE (R20): WRITE to region 0x04. -/
  | calibrationWrite (h : Envelope) (rest : List Byte)
  /-- DOSE_WRITE (R30): WRITE to region 0x02. -/
  | doseWrite (h : Envelope) (rest : List Byte)
  /-- PROFILE_WRITE (R88): WRITE to region 0x03. -/
  | profileWrite (h : Envelope) (rest : List Byte)
  /-- LIMITS_WRITE (R61): WRITE to region 0x05. -/
  | limitsWrite (h : Envelope) (rest : List Byte)
  /-- LINEMAP_WRITE (R155): WRITE to region 0x06. -/
  | linemapWrite (h : Envelope) (rest : List Byte)
  /-- NODE_WRITE (R152): WRITE to region 0x07. -/
  | nodeWrite (h : Envelope) (rest : List Byte)
  /-- COMPARATOR_WRITE (R103): WRITE to region 0x08. -/
  | comparatorWrite (h : Envelope) (rest : List Byte)
  /-- WRITE_UNKNOWN_REGION (R159): a WRITE too short, or to a region that cannot be written. -/
  | writeUnknownRegion (h : Envelope) (payload : List Byte)
  /-- ALERTS_READ (R167): a READ; region 0x14 is ALERTS. The table's one READ row carries the READs of every
  region. -/
  | alertsRead (h : Envelope) (payload : List Byte)
  deriving DecidableEq, Repr

end Sys2Proof
end

