-- ==== Sys2Proof/Config.lean ====
section
/-! DEFINITION. The constants the manual fixes for the part: capacities, limits of its counts, device
identity. The manual leaves no value of the machine to a configuration, so there is no free value here. -/

namespace Sys2Proof.Config

/-- Capacities of the collections (03_sightings_and_infeed_queues.md Table 3-2). -/
def bqCapacity : Nat := 24
def cqCapacity : Nat := 16
def jqCapacity : Nat := 16
def tqCapacity : Nat := 4
def ptPositions : Nat := 6
def aqCapacity : Nat := 8

/-- Capacity of the outbound queue (R154). -/
def outboundCapacity : Nat := 32

/-- Capacity of the forward buffer (R153). -/
def forwardCapacity : Nat := 2

/-- Capacity of the alert log (R165). -/
def logCapacity : Nat := 32

/-- Longest payload (R147). -/
def maxPayload : Nat := 56

/-- Broadcast node (R149). -/
def broadcast : Node := 63

/-- Where the link error count saturates (R147). -/
def linkErrorTop : Nat := 65535

/-- The consecutive-bad count that ends UP, where the count saturates too (R147, R148). -/
def consecBadLimit : Nat := 8

/-- Where a run total saturates (R123). -/
def totalTop : Nat := 4294967295

/-- Where a starved count saturates (R65). -/
def starvedTop : Nat := 255

/-- Most shots of one side (R34). -/
def maxShots : Nat := 4095

/-- Greatest corrected thickness (R26). -/
def maxThickness : Nat := 12000

/-- Outbound occupancy above which RESUME, and DRAIN from HALT, are answered BUSY (R136, R137). -/
def resumeOccupancy : Nat := 16

/-- Device code and revision of IDENT (R163). -/
def deviceCode : Nat := 0x0640
def deviceRevision : Nat := 1

/-- Own node number when the NODE group is bad (R152, R171). -/
def defaultNode : Node := 62

end Sys2Proof.Config
end

