-- ==== Sys2Proof/Machine/Operands.lean ====
section
/-! DEFINITION. The operand forms of messages: fields of a payload read and written by byte offset. Multi-byte
fields are most significant byte first and signed fields two's complement (09_the_line_ring.md R146). A read
past the end gives 0; every rule checks the length before it uses a field. -/

namespace Sys2Proof.Machine

/-- The byte at offset `i`. -/
def byteAt (p : List Byte) (i : Nat) : Byte := p.getD i 0

/-- The two-byte field at offset `i`. -/
def wordAt (p : List Byte) (i : Nat) : BitVec 16 := byteAt p i ++ byteAt p (i + 1)

/-- The three-byte field at offset `i`. -/
def keyAt (p : List Byte) (i : Nat) : BitVec 24 := wordAt p i ++ byteAt p (i + 2)

/-- The four-byte field at offset `i`. -/
def serialAt (p : List Byte) (i : Nat) : BitVec 32 := wordAt p i ++ wordAt p (i + 2)

/-- The one-byte quantity at offset `i`. -/
def natAt1 (p : List Byte) (i : Nat) : Nat := (byteAt p i).toNat

/-- The two-byte quantity at offset `i`. -/
def natAt2 (p : List Byte) (i : Nat) : Nat := (wordAt p i).toNat

/-- The signed two-byte quantity at offset `i`. -/
def intAt2 (p : List Byte) (i : Nat) : Int := (wordAt p i).toInt

/-- A field of two bytes, high byte first. -/
def bytes2 (w : BitVec 16) : List Byte := [w.extractLsb' 8 8, w.extractLsb' 0 8]

/-- A field of three bytes, high byte first. -/
def bytes3 (w : BitVec 24) : List Byte := [w.extractLsb' 16 8, w.extractLsb' 8 8, w.extractLsb' 0 8]

/-- A field of four bytes, high byte first. -/
def bytes4 (w : BitVec 32) : List Byte :=
  [w.extractLsb' 24 8, w.extractLsb' 16 8, w.extractLsb' 8 8, w.extractLsb' 0 8]

/-- A quantity in one byte. -/
def natByte (n : Nat) : Byte := BitVec.ofNat 8 n

/-- A quantity in two bytes. -/
def nat2 (n : Nat) : List Byte := bytes2 (BitVec.ofNat 16 n)

/-- A signed quantity in two bytes. -/
def int2 (n : Int) : List Byte := bytes2 (BitVec.ofInt 16 n)

/-- A quantity in four bytes. -/
def nat4 (n : Nat) : List Byte := bytes4 (BitVec.ofNat 32 n)

/-- A flag in one byte, 1 for set. -/
def flagByte (b : Bool) : Byte := if b then 1 else 0

/-- Bit `i` of a byte, 0 the least significant. -/
def bitSet (b : Byte) (i : Nat) : Bool := b.getLsbD i

/-- The byte whose bits are `bs`, bit 0 first; further bits are 0. -/
def packBits : List Bool → Byte
  | [] => 0
  | b :: bs => (packBits bs <<< 1) ||| flagByte b

/-- The records of `size` bytes each that `p` holds one after the other, `count` of them. -/
def chunks (size : Nat) : Nat → List Byte → List (List Byte)
  | 0, _ => []
  | count + 1, p => p.take size :: chunks size count (p.drop size)

end Sys2Proof.Machine
end

