-- ==== Sys2Proof/Machine/Flags.lean ====
section
/-! DEFINITION. The codes and flag sets of the part: message kinds, statuses, reasons, actions, routes, stages,
alert codes, halt causes (09_the_line_ring.md Tables 9-2 and 9-4, 08_run_control.md Tables 8-3 to 8-5,
10_management_requests_and_alerts.md Tables 10-1, 10-2 and 10-5), each with the code it is sent as. -/

namespace Sys2Proof.Machine

/-- Message kinds (Table 9-2). -/
inductive Kind where
  | sight | cycle | sense | mark | tally | feed | casein | press | jacket
  | ctrl | write | read | reply | alert | proof
  deriving DecidableEq, Repr

/-- Kind codes (Table 9-2). -/
def Kind.code : Kind → Byte
  | .sight => 0x01
  | .cycle => 0x02
  | .sense => 0x03
  | .mark => 0x04
  | .tally => 0x08
  | .feed => 0x10
  | .casein => 0x11
  | .press => 0x12
  | .jacket => 0x13
  | .ctrl => 0x20
  | .write => 0x21
  | .read => 0x22
  | .reply => 0x28
  | .alert => 0x29
  | .proof => 0x30

/-- Every kind. -/
def Kind.all : List Kind :=
  [.sight, .cycle, .sense, .mark, .tally, .feed, .casein, .press, .jacket, .ctrl, .write, .read, .reply, .alert,
    .proof]

/-- The kind of a kind code; none for a code not in Table 9-2. -/
def Kind.ofCode (b : Byte) : Option Kind := Kind.all.find? fun k => k.code == b

/-- Reply statuses (Table 10-2). -/
inductive Status where
  | ok | unknown | length | range | state | isProtected | duplicate | busy | refused
  deriving DecidableEq, Repr

def Status.code : Status → Byte
  | .ok => 0
  | .unknown => 1
  | .length => 2
  | .range => 3
  | .state => 4
  | .isProtected => 5
  | .duplicate => 6
  | .busy => 7
  | .refused => 8

/-- Reasons of a CTRL reply (Table 8-4). -/
inductive Reason where
  | none | calMissing | mapIncomplete | tableEmpty | proofFailed | linkDown | causePersists
  deriving DecidableEq, Repr

def Reason.code : Reason → Byte
  | .none => 0
  | .calMissing => 1
  | .mapIncomplete => 2
  | .tableEmpty => 3
  | .proofFailed => 4
  | .linkDown => 5
  | .causePersists => 6

/-- CTRL requests (Table 8-3). -/
inductive Request where
  | start | halt | resume | drain | abort | purge | clear | reset | arm | disarm | copy | store | proof
  deriving DecidableEq, Repr

def Request.code : Request → Byte
  | .start => 0x01
  | .halt => 0x02
  | .resume => 0x03
  | .drain => 0x04
  | .abort => 0x05
  | .purge => 0x06
  | .clear => 0x07
  | .reset => 0x08
  | .arm => 0x10
  | .disarm => 0x11
  | .copy => 0x12
  | .store => 0x18
  | .proof => 0x19

def Request.all : List Request :=
  [.start, .halt, .resume, .drain, .abort, .purge, .clear, .reset, .arm, .disarm, .copy, .store, .proof]

/-- The request of a request code; none for a code not in Table 8-3. -/
def Request.ofCode (b : Byte) : Option Request := Request.all.find? fun r => r.code == b

/-- Regions of WRITE and READ (Table 10-1). -/
inductive Region where
  | title | dose | profile | calibration | limits | linemap | node | comparator | protect
  | status | totals | ident | queue | alerts
  deriving DecidableEq, Repr

def Region.code : Region → Byte
  | .title => 0x01
  | .dose => 0x02
  | .profile => 0x03
  | .calibration => 0x04
  | .limits => 0x05
  | .linemap => 0x06
  | .node => 0x07
  | .comparator => 0x08
  | .protect => 0x09
  | .status => 0x10
  | .totals => 0x11
  | .ident => 0x12
  | .queue => 0x13
  | .alerts => 0x14

def Region.all : List Region :=
  [.title, .dose, .profile, .calibration, .limits, .linemap, .node, .comparator, .protect, .status, .totals,
    .ident, .queue, .alerts]

/-- The region of a region code; none for a code not in Table 10-1. -/
def Region.ofCode (b : Byte) : Option Region := Region.all.find? fun r => r.code == b

/-- Alert codes (Table 10-5). -/
inductive AlertCode where
  | badSighting | roleMismatch | serialRepeat | unknownTitle | offCaliper | caliperClamped | queueOverflow
  | phantom | itemLost | starved | cycleGap | doseClamped | ironAlarmOn | ironAlarmOff | senseStale | noTaker
  | outboundFull | linkDown | linkUp | halted | drained | purged | bankSwapped | storeFixed | storeBad | storeDone
  | proofDone
  deriving DecidableEq, Repr

def AlertCode.code : AlertCode → Byte
  | .badSighting => 0x01
  | .roleMismatch => 0x02
  | .serialRepeat => 0x03
  | .unknownTitle => 0x04
  | .offCaliper => 0x05
  | .caliperClamped => 0x06
  | .queueOverflow => 0x07
  | .phantom => 0x08
  | .itemLost => 0x09
  | .starved => 0x0A
  | .cycleGap => 0x0B
  | .doseClamped => 0x0C
  | .ironAlarmOn => 0x0D
  | .ironAlarmOff => 0x0E
  | .senseStale => 0x0F
  | .noTaker => 0x10
  | .outboundFull => 0x11
  | .linkDown => 0x12
  | .linkUp => 0x13
  | .halted => 0x14
  | .drained => 0x15
  | .purged => 0x16
  | .bankSwapped => 0x17
  | .storeFixed => 0x18
  | .storeBad => 0x19
  | .storeDone => 0x1A
  | .proofDone => 0x1B

/-- Item types (Table 9-4). -/
inductive ItemType where
  | block | caseItem | jacket
  deriving DecidableEq, Repr

def ItemType.code : ItemType → Byte
  | .block => 1
  | .caseItem => 2
  | .jacket => 3

/-- Routes (Table 9-4); no route is sent as 0. -/
inductive Route where
  | good | inspect | reject | lost | purged
  deriving DecidableEq, Repr

def Route.code : Route → Byte
  | .good => 1
  | .inspect => 2
  | .reject => 3
  | .lost => 4
  | .purged => 5

/-- Stages (Table 9-4). -/
inductive Stage where
  | casing | press | jacketing | queue
  deriving DecidableEq, Repr

def Stage.code : Stage → Byte
  | .casing => 16
  | .press => 17
  | .jacketing => 18
  | .queue => 19

/-- The twelve reasons of a tally (Tables 7-3 and 9-4). -/
inductive TallyReason where
  | unknownTitle | offCaliper | caliperClamped | wrongCase | noCase | fit | doseClamped | heatSuspect
  | wrongJacket | noJacket | proofCopy | untracked
  deriving DecidableEq, Repr

/-- The bit of a reason in a TALLY (Table 9-4). -/
def TallyReason.bit : TallyReason → Nat
  | .unknownTitle => 0
  | .offCaliper => 1
  | .caliperClamped => 2
  | .wrongCase => 3
  | .noCase => 4
  | .fit => 5
  | .doseClamped => 6
  | .heatSuspect => 7
  | .wrongJacket => 8
  | .noJacket => 9
  | .proofCopy => 10
  | .untracked => 11

/-- A reason set as the two reason bytes of a TALLY. -/
def reasonBits : List TallyReason → Word
  | [] => 0
  | r :: rs => reasonBits rs ||| (1#16 <<< r.bit)

/-- Actions of the CASEIN and JACKET orders (Table 9-4). -/
inductive BlockAction where
  | none | take | hold | divert
  deriving DecidableEq, Repr

def BlockAction.code : BlockAction → Byte
  | .none => 0
  | .take => 1
  | .hold => 2
  | .divert => 3

inductive CaseAction where
  | none | take | hold | eject
  deriving DecidableEq, Repr

def CaseAction.code : CaseAction → Byte
  | .none => 0
  | .take => 1
  | .hold => 2
  | .eject => 3

inductive BookAction where
  | none | pass | hold
  deriving DecidableEq, Repr

def BookAction.code : BookAction → Byte
  | .none => 0
  | .pass => 1
  | .hold => 2

inductive JacketAction where
  | none | apply | hold | eject
  deriving DecidableEq, Repr

def JacketAction.code : JacketAction → Byte
  | .none => 0
  | .apply => 1
  | .hold => 2
  | .eject => 3

/-- Feed levels (03_sightings_and_infeed_queues.md 3.7, Table 9-3). -/
inductive FeedLevel where
  | pause | normal | high
  deriving DecidableEq, Repr

def FeedLevel.code : FeedLevel → Byte
  | .pause => 0
  | .normal => 1
  | .high => 2

/-- The three feeders, roles 4, 5 and 6. -/
inductive Feeder where
  | block | caseFeeder | jacket
  deriving DecidableEq, Repr

/-- The six collections (Table 3-2). -/
inductive Collection where
  | bq | cq | jq | tq | pt | aq
  deriving DecidableEq, Repr

def Collection.code : Collection → Nat
  | .bq => 1
  | .cq => 2
  | .jq => 3
  | .tq => 4
  | .pt => 5
  | .aq => 6

/-- The collection of a collection code (Table 3-2). -/
def Collection.ofCode : Nat → Option Collection
  | 1 => some .bq
  | 2 => some .cq
  | 3 => some .jq
  | 4 => some .tq
  | 5 => some .pt
  | 6 => some .aq
  | _ => none

/-- The three machines that send CYCLE, with their roles and stages (Table 4-1). -/
inductive Merge where
  | casing | press | jacketer
  deriving DecidableEq, Repr

def Merge.role : Merge → Nat
  | .casing => 7
  | .press => 8
  | .jacketer => 9

def Merge.stage : Merge → Stage
  | .casing => .casing
  | .press => .press
  | .jacketer => .jacketing

/-- Halt causes (Table 8-5). -/
inductive Cause where
  | master | overflow | tracking | outboundFull | noTaker | link
  deriving DecidableEq, Repr

/-- A set of halt causes (R127). -/
structure CauseSet where
  master : Bool
  overflow : Bool
  tracking : Bool
  outboundFull : Bool
  noTaker : Bool
  link : Bool
  deriving DecidableEq, Repr

def CauseSet.empty : CauseSet := ⟨false, false, false, false, false, false⟩

/-- The set with `c` added (R132). -/
def CauseSet.add (s : CauseSet) : Cause → CauseSet
  | .master => { s with master := true }
  | .overflow => { s with overflow := true }
  | .tracking => { s with tracking := true }
  | .outboundFull => { s with outboundFull := true }
  | .noTaker => { s with noTaker := true }
  | .link => { s with link := true }

/-- The sum of the weights of the members (Table 8-5). -/
def CauseSet.weight (s : CauseSet) : Nat :=
  s.master.toNat + 2 * s.overflow.toNat + 4 * s.tracking.toNat + 8 * s.outboundFull.toNat + 16 * s.noTaker.toNat
    + 32 * s.link.toNat

/-- Run states (R127) and their STATUS codes (Table 10-3). -/
inductive RunState where
  | config | run | halt | drain
  deriving DecidableEq, Repr

def RunState.code : RunState → Byte
  | .config => 0
  | .run => 1
  | .halt => 2
  | .drain => 3

/-- Link states (R148) and their STATUS codes. -/
inductive LinkState where
  | down | acquiring | up
  deriving DecidableEq, Repr

def LinkState.code : LinkState → Byte
  | .down => 0
  | .acquiring => 1
  | .up => 2

/-- Proof results (R157) and their STATUS codes. -/
inductive ProofResult where
  | none | pass | fail
  deriving DecidableEq, Repr

def ProofResult.code : ProofResult → Byte
  | .none => 0
  | .pass => 1
  | .fail => 2

/-- The two banks of titles (R1). -/
inductive BankName where
  | a | b
  deriving DecidableEq, Repr

def BankName.other : BankName → BankName
  | .a => .b
  | .b => .a

def BankName.code : BankName → Byte
  | .a => 0
  | .b => 1

/-- The two iron banks (06_joint_iron_monitoring.md). -/
inductive IronBank where
  | forward | rear
  deriving DecidableEq, Repr

def IronBank.code : IronBank → Nat
  | .forward => 0
  | .rear => 1

/-- A comparator's direction (Table 6-5). -/
inductive Direction where
  | above | below
  deriving DecidableEq, Repr

def Direction.code : Direction → Byte
  | .above => 0
  | .below => 1

/-- A bank's sense state (R95). -/
inductive SenseState where
  | fresh | stale
  deriving DecidableEq, Repr

/-- The open-drain output STOP_N (R134). -/
inductive StopLine where
  | released | low
  deriving DecidableEq, Repr

end Sys2Proof.Machine
end

