-- ==== Sys2Proof/Machine/Blocks.lean ====
section
/-! DEFINITION. The state of each of the part's blocks (00_scope.md 0.3), with the values a block takes at its
resets and the defaults of the stored settings. -/

namespace Sys2Proof.Machine

/-! ### Title Table (01_title_table.md) -/

/-- The fields of a title record that a sighting copies into a BQ entry (R3, Table 1-1). -/
structure TitleData where
  caseKey : ItemKey
  jacketKey : ItemKey
  tn : Nat
  tt : Nat
  amin : Nat
  amax : Nat
  height : Nat
  width : Nat
  recipe : Fin 32
  profile : Fin 64
  pasteLeft : Bool
  pasteRight : Bool
  deriving DecidableEq, Repr

/-- Every field 0 (R1). -/
def TitleData.zero : TitleData := ⟨0, 0, 0, 0, 0, 0, 0, 0, 0, 0, false, false⟩

/-- A title record (Table 1-1); the slot that holds it is empty when the key is 0 (R1). -/
structure TitleRecord where
  key : TitleKey
  data : TitleData
  proofCount : Nat
  deriving DecidableEq, Repr

/-- The record of an empty slot: every field 0 (R1). -/
def TitleRecord.empty : TitleRecord := ⟨0, TitleData.zero, 0⟩

/-- A bank of 512 title slots (R1). -/
abbrev Bank := Table TitleRecord 512

/-- The Title Table (R1, R8, R10, R13, R15). -/
structure TitleTable where
  bankA : Bank
  bankB : Bank
  active : BankName
  armed : Bool
  protect : Fin 4
  proofLeft : Table Nat 512
  lastMark : Word
  deriving DecidableEq, Repr

/-! ### Caliper Correction Unit and Dose Unit (02_caliper_and_dose_arithmetic.md) -/

/-- The default record (R22). -/
def Calibration.default : Calibration := ⟨0, 16383, 4096, 4096, 2048, 0, 0⟩

/-- The recipe of a bad RECIPES group (R36). -/
def Recipe.default : Recipe := ⟨0, 0, 1, 0⟩

/-- The Dose Unit (R29); carry 2r is recipe r's left side, carry 2r + 1 its right. -/
structure DoseUnit where
  recipes : Table Recipe 32
  carries : Table Nat 64
  deriving DecidableEq, Repr

/-! ### Tracking Engine (chapters 3, 4, 5 and 7) -/

/-- The counts of an entry that serve reconciliation (R62, R64, R65). -/
structure Waiting where
  absent : Nat
  starved : Nat
  mark : Bool
  deriving DecidableEq, Repr

/-- Counts 0 and mark clear, as an entry joins its queue. -/
def Waiting.fresh : Waiting := ⟨0, 0, false⟩

/-- The slot and snapshot of a found lookup (R3, R43). -/
structure Found where
  slot : Fin 512
  data : TitleData
  deriving DecidableEq, Repr

/-- A BQ entry (Table 3-3). The entry is flagged UNKNOWN_TITLE exactly when `title` is absent (R43), so that flag
has no field of its own. -/
structure BlockEntry where
  serial : Serial
  key : TitleKey
  title : Option Found
  thickness : Nat
  offCaliper : Bool
  clamped : Bool
  wait : Waiting
  fitFail : Nat
  deriving DecidableEq, Repr

/-- A CQ entry (R45). -/
structure CaseEntry where
  serial : Serial
  key : ItemKey
  spine : Nat
  wait : Waiting
  deriving DecidableEq, Repr

/-- A JQ entry (R46). -/
structure JacketEntry where
  serial : Serial
  key : ItemKey
  wait : Waiting
  deriving DecidableEq, Repr

/-- The flags of a book record (Table 4-4). -/
structure BookFlags where
  heatSuspect : Bool
  doseClamped : Bool
  untracked : Bool
  deriving DecidableEq, Repr

/-- A book record (Table 4-4). -/
structure BookRecord where
  serial : Serial
  key : TitleKey
  thickness : Nat
  jacketKey : ItemKey
  profile : Option (Fin 64)
  flags : BookFlags
  wait : Waiting
  deriving DecidableEq, Repr

/-- The press train: positions 1 to 6 from infeed to outfeed (R80). -/
structure PressTrain where
  p1 : Option BookRecord
  p2 : Option BookRecord
  p3 : Option BookRecord
  p4 : Option BookRecord
  p5 : Option BookRecord
  p6 : Option BookRecord
  deriving DecidableEq, Repr

/-- Every position empty. -/
def PressTrain.empty : PressTrain := ⟨none, none, none, none, none, none⟩

/-- The positions in order, 1 first. -/
def PressTrain.positions (t : PressTrain) : List (Option BookRecord) := [t.p1, t.p2, t.p3, t.p4, t.p5, t.p6]

/-- The records held, position 1 first. -/
def PressTrain.records (t : PressTrain) : List BookRecord := t.positions.filterMap id

/-- The six collections (Table 3-2). -/
structure Queues where
  bq : List BlockEntry
  cq : List CaseEntry
  jq : List JacketEntry
  tq : List BookRecord
  pt : PressTrain
  aq : List BookRecord
  deriving DecidableEq, Repr

/-- Every collection empty. -/
def Queues.empty : Queues := ⟨[], [], [], [], PressTrain.empty, []⟩

/-- The last cycle numbers (R57; none is "any") and the casing cycle stamp (R60). -/
structure Cycles where
  lastCasing : Option Word
  lastPress : Option Word
  lastJacket : Option Word
  stamp : BitVec 32
  deriving DecidableEq, Repr

/-- All three last cycle numbers any, stamp 0 (R78). -/
def Cycles.reset : Cycles := ⟨none, none, none, 0⟩

/-- The defaults of Tables 3-4 and 4-2, and stale limit 8 (R171). -/
def Limits.default : Limits := ⟨4, 12, 3, 8, 3, 8, 2, 2, 3, 2, 3, 2, 8⟩

/-- The last level sent to each feeder (R50). -/
structure FeedLevels where
  block : FeedLevel
  cases : FeedLevel
  jacket : FeedLevel
  deriving DecidableEq, Repr

/-- All three PAUSE (R53). -/
def FeedLevels.paused : FeedLevels := ⟨.pause, .pause, .pause⟩

/-- The seven run totals of one item type (Table 7-5). -/
structure ItemTotals where
  accepted : Nat
  good : Nat
  inspect : Nat
  reject : Nat
  lost : Nat
  purged : Nat
  untracked : Nat
  deriving DecidableEq, Repr

def ItemTotals.zero : ItemTotals := ⟨0, 0, 0, 0, 0, 0, 0⟩

/-- The 21 run totals (R123). -/
structure Totals where
  blocks : ItemTotals
  cases : ItemTotals
  jackets : ItemTotals
  deriving DecidableEq, Repr

def Totals.zero : Totals := ⟨ItemTotals.zero, ItemTotals.zero, ItemTotals.zero⟩

/-! ### Press Profile Table (05_the_building_in_press.md) -/

/-- A press profile entry (Table 5-2). -/
structure ProfileEntry where
  pressure : Byte
  heat : Bool
  deriving DecidableEq, Repr

/-- A press profile: entries for positions 1 to 6 (R87). -/
structure Profile where
  e1 : ProfileEntry
  e2 : ProfileEntry
  e3 : ProfileEntry
  e4 : ProfileEntry
  e5 : ProfileEntry
  e6 : ProfileEntry
  deriving DecidableEq, Repr

/-- Pressure 0 and heat clear at every position (R86, R94). -/
def Profile.zero : Profile := ⟨⟨0, false⟩, ⟨0, false⟩, ⟨0, false⟩, ⟨0, false⟩, ⟨0, false⟩, ⟨0, false⟩⟩

/-- The entries, position 1 first. -/
def Profile.entries (p : Profile) : List ProfileEntry := [p.e1, p.e2, p.e3, p.e4, p.e5, p.e6]

/-- The entry a record in range carries (Table 9-5). -/
def EntryRecord.entry (r : EntryRecord) : ProfileEntry := ⟨r.pressure, decide (r.heat = 1)⟩

/-- The record that carries an entry (Table 9-5). -/
def ProfileEntry.record (e : ProfileEntry) : EntryRecord := ⟨e.pressure, if e.heat then 1 else 0⟩

/-- The profile a record in range carries (Table 9-5). -/
def ProfileRecord.profile (r : ProfileRecord) : Profile :=
  ⟨r.e1.entry, r.e2.entry, r.e3.entry, r.e4.entry, r.e5.entry, r.e6.entry⟩

/-- The record that carries a profile (Table 9-5). -/
def Profile.record (p : Profile) : ProfileRecord :=
  ⟨p.e1.record, p.e2.record, p.e3.record, p.e4.record, p.e5.record, p.e6.record⟩

/-! ### Iron Monitor (06_joint_iron_monitoring.md) -/

/-- A comparator's configuration (R95); its bank is fixed by its index. -/
structure ComparatorConfig where
  direction : Direction
  enable : Bool
  confirm : Nat
  onThreshold : Int
  offThreshold : Int
  deriving DecidableEq, Repr

/-- A comparator: configuration, condition (ON is true) and confirm tally (R95). -/
structure Comparator where
  config : ComparatorConfig
  on : Bool
  tally : Nat
  deriving DecidableEq, Repr

/-- The configuration a record in range carries (Table 6-5). -/
def ComparatorRecord.config (r : ComparatorRecord) : ComparatorConfig :=
  ⟨if r.direction = 0 then .above else .below, decide (r.enable = 1), r.confirm, r.onThreshold, r.offThreshold⟩

/-- The record that carries a configuration (Table 6-5). -/
def ComparatorConfig.record (c : ComparatorConfig) : ComparatorRecord :=
  ⟨c.direction.code, if c.enable then 1 else 0, c.confirm, c.onThreshold, c.offThreshold⟩

/-- The default configurations (Table 6-1): FWD_HI, FWD_LO, REAR_HI, REAR_LO. -/
def ComparatorRecord.defaults : Table ComparatorRecord 4 :=
  ⟨[⟨0, 1, 2, 2000, 1900⟩, ⟨1, 1, 2, 1400, 1500⟩, ⟨0, 1, 2, 2000, 1900⟩, ⟨1, 1, 2, 1400, 1500⟩], rfl⟩

/-- A comparator as a reset leaves it: OFF with tally 0 (R105, R106). -/
def Comparator.off (c : ComparatorConfig) : Comparator := ⟨c, false, 0⟩

/-- A bank record (R95). -/
structure BankRecord where
  sense : SenseState
  counter : Nat
  deriving DecidableEq, Repr

/-- STALE with counter 0 (R105, R106). -/
def BankRecord.reset : BankRecord := ⟨.stale, 0⟩

/-- The Iron Monitor (R95). -/
structure IronMonitor where
  comparators : Table Comparator 4
  forward : BankRecord
  rear : BankRecord
  deriving DecidableEq, Repr

/-! ### Run Control (08_run_control.md) -/

/-- Run Control (R127, R134). -/
structure RunControl where
  state : RunState
  causes : CauseSet
  stopN : StopLine
  deriving DecidableEq, Repr

/-- CONFIG, no cause, STOP_N released (R143, R144). -/
def RunControl.config : RunControl := ⟨.config, CauseSet.empty, .released⟩

/-! ### Ring Port and Line Map (09_the_line_ring.md) -/

/-- The downstream transmitter (R153). -/
inductive Transmitter where
  | idle
  | forwarding (m : Message)
  | own (m : Message)
  deriving DecidableEq, Repr

/-- A proof run in progress (R156, R157): which indices returned intact, and whether the timer has started. -/
structure ProofRun where
  intact : Table Bool 16
  timer : Bool
  deriving DecidableEq, Repr

/-- The Ring Port. -/
structure RingPort where
  link : LinkState
  linkErrors : Nat
  consecBad : Nat
  outbound : List Message
  forward : List Message
  tx : Transmitter
  proofResult : ProofResult
  proofRun : Option ProofRun
  ownNode : Node
  formerNode : Option Node
  deriving DecidableEq, Repr

/-! ### Management Unit (10_management_requests_and_alerts.md) -/

/-- An alert record (R165); `stage` is the stage or role. -/
structure Alert where
  code : AlertCode
  stage : Byte
  serial : Serial
  key : TitleKey
  stamp : BitVec 32
  detail : Word
  deriving DecidableEq, Repr

/-- The Management Unit's log, overrun flag and ATTN (R165, R166). -/
structure Management where
  log : List Alert
  overrun : Bool
  attn : Level
  deriving DecidableEq, Repr

/-- Log empty, overrun clear, ATTN low (R168). -/
def Management.reset : Management := ⟨[], false, .low⟩

/-! ### Settings Store (11_stored_settings_and_start_up.md) -/

/-- A store group: its written marker, the values its words hold, and the health of its words (R169, R170). -/
structure StoreGroup (α : Type) where
  marker : Bool
  content : α
  health : CellHealth
  deriving DecidableEq, Repr

/-- The defaults of the seven groups (R171). -/
def Settings.default : Settings where
  node := Config.defaultNode
  caliper := ⟨Calibration.default, false⟩
  comparators := ComparatorRecord.defaults
  limits := Limits.default
  lineMap := Table.fill 9 0
  recipes := ⟨Table.fill 32 Recipe.default, Table.fill 64 Profile.zero.record⟩
  protect := 3

/-- The protect level a stored value in range gives (R8). -/
def protectLevel (v : Byte) : Fin 4 := Fin.ofNat 4 v.toNat

/-- The STORE operation state (R169), with the snapshot of a STORE in flight (R172). -/
inductive StoreOp where
  | idle
  | inFlight (snapshot : Settings)
  deriving DecidableEq, Repr

/-- The Settings Store (R169). -/
structure Store where
  node : StoreGroup Node
  caliper : StoreGroup CaliperUnit
  comparators : StoreGroup (Table ComparatorRecord 4)
  limits : StoreGroup Limits
  lineMap : StoreGroup LineMap
  recipes : StoreGroup RecipeGroup
  protect : StoreGroup Byte
  op : StoreOp
  deriving DecidableEq, Repr

/-- A group never written: its marker is missing (R169). -/
def StoreGroup.blank {α : Type} (content : α) : StoreGroup α := ⟨false, content, .clean⟩

/-- A store never written (R169). DESIGN CHOICE unsafe: log 1 and log 14. -/
def Store.blank : Store where
  node := StoreGroup.blank Settings.default.node
  caliper := StoreGroup.blank Settings.default.caliper
  comparators := StoreGroup.blank Settings.default.comparators
  limits := StoreGroup.blank Settings.default.limits
  lineMap := StoreGroup.blank Settings.default.lineMap
  recipes := StoreGroup.blank Settings.default.recipes
  protect := StoreGroup.blank Settings.default.protect
  op := .idle

/-! ### The part -/

/-- Where the part stands in start-up: RESET_N low, the power-on load running, or the load done (R144, R170). -/
inductive Phase where
  | held
  | loading
  | running
  deriving DecidableEq, Repr

/-- The inputs the part reads as levels: GUARD (R9) and the presence of line symbols on RING_IN (R145). -/
structure Pins where
  guard : Level
  carrier : Bool
  deriving DecidableEq, Repr

/-- The Ring Port right after power-on reset, with own node `node` (R158). -/
def RingPort.powerOn (node : Node) : RingPort where
  link := .down
  linkErrors := 0
  consecBad := 0
  outbound := []
  forward := []
  tx := .idle
  proofResult := .none
  proofRun := none
  ownNode := node
  formerNode := none

/-- The Title Table right after power-on reset, at protect level `level` (R17). -/
def TitleTable.powerOn (level : Fin 4) : TitleTable where
  bankA := Table.fill 512 TitleRecord.empty
  bankB := Table.fill 512 TitleRecord.empty
  active := .a
  armed := false
  protect := level
  proofLeft := Table.fill 512 0
  lastMark := 0

/-- The Iron Monitor after either reset (R105, R106). -/
def IronMonitor.reset (configs : Table ComparatorConfig 4) : IronMonitor :=
  ⟨configs.map Comparator.off, BankRecord.reset, BankRecord.reset⟩

end Sys2Proof.Machine
end

