-- ==== Sys2Proof/Machine/State.lean ====
section
/-! DEFINITION. The state of the part: every register, table, queue, buffer, counter, mode and pin the spec names,
block by block, the queue of waiting commands, and the state after reset. -/

namespace Sys2Proof.Machine

/-- The whole state. `pending` is the queue of waiting commands, first in first out. -/
structure State where
  pending : List Instr
  phase : Phase
  pins : Pins
  ring : RingPort
  lineMap : LineMap
  titles : TitleTable
  ccu : CaliperUnit
  dose : DoseUnit
  queues : Queues
  cycles : Cycles
  limits : Limits
  feed : FeedLevels
  totals : Totals
  profiles : Table Profile 64
  iron : IronMonitor
  rc : RunControl
  mu : Management
  store : Store
  deriving DecidableEq, Repr

/-- The ways the part stops. The spec names none: every event has an effect. No meaning raises a fault (safe). -/
inductive Fault where
  deriving DecidableEq, Repr

/-- The ways a command is refused. -/
inductive Refusal where
  /-- Raised by `exec` for a command that has no meaning yet (safe). No arm of this model raises it. -/
  | notModelled (mnemonic : String)
  deriving DecidableEq, Repr

/-- The part with power-on values at every block (R144 and the reset rules of each chapter), the working copies of
the settings being `w`, over the settings store `store` and pins `pins`. -/
def State.powerOn (pending : List Instr) (pins : Pins) (store : Store) (w : Settings) : State where
  pending := pending
  phase := .held
  pins := pins
  ring := RingPort.powerOn w.node
  lineMap := w.lineMap
  titles := TitleTable.powerOn (protectLevel w.protect)
  ccu := w.caliper
  dose := ⟨w.recipes.recipes, Table.fill 64 0⟩
  queues := Queues.empty
  cycles := Cycles.reset
  limits := w.limits
  feed := FeedLevels.paused
  totals := Totals.zero
  profiles := w.recipes.profiles.map ProfileRecord.profile
  iron := IronMonitor.reset (w.comparators.map ComparatorRecord.config)
  rc := RunControl.config
  mu := Management.reset
  store := store

/-- The machine right after reset: power-on values, RESET_N still low, the store never written (log 1). -/
def State.reset : State := State.powerOn [] ⟨.low, false⟩ Store.blank Settings.default

end Sys2Proof.Machine
end

