-- ==== Sys2Proof/Machine/Ops.lean ====
section
/-! DEFINITION. The operations every event shares: logging an alert, raising a halt cause, forming a FEED order,
handing a message to the outbound queue, and ending an event.

An event first makes its changes of state and then hands over its messages (log 10). While it runs it carries the
FEED orders it has formed, which join after its other messages (R52), and the ALERT messages it has formed, which
join last (R166). -/

namespace Sys2Proof.Machine

/-- An event in progress: the state so far, the FEED orders formed, the number of ALERT messages formed. -/
structure Ev where
  s : State
  feeds : List (Feeder × FeedLevel)
  alertsDue : Nat
  deriving DecidableEq, Repr

/-- An event begins in state `s`. -/
def Ev.start (s : State) : Ev := ⟨s, [], 0⟩

/-! ### Alerts -/

/-- A record logged at the Management Unit: it joins the tail of a log with room, driving ATTN high when the log
was empty, and is discarded with the overrun flag set otherwise (R165, R166). -/
def Management.logged (mu : Management) (a : Alert) : Management :=
  if mu.log.length < Config.logCapacity then
    { mu with log := mu.log ++ [a], attn := if mu.log = [] then .high else mu.attn }
  else { mu with overrun := true }

/-- Log an alert with the casing cycle stamp as it stands (R60, R165); a record that joins an empty log forms one
ALERT message (R166). -/
def logAlert (code : AlertCode) (stage : Byte) (serial : Serial) (key : TitleKey) (detail : Word) (e : Ev) : Ev :=
  { e with
    s := { e.s with mu := e.s.mu.logged ⟨code, stage, serial, key, e.s.cycles.stamp, detail⟩ }
    alertsDue := if e.s.mu.log = [] then e.alertsDue + 1 else e.alertsDue }

/-! ### FEED orders and halt causes -/

/-- The last level sent to a feeder (R50). -/
def FeedLevels.of (l : FeedLevels) : Feeder → FeedLevel
  | .block => l.block
  | .caseFeeder => l.cases
  | .jacket => l.jacket

/-- The last levels sent with that of one feeder replaced. -/
def FeedLevels.set (l : FeedLevels) (v : FeedLevel) : Feeder → FeedLevels
  | .block => { l with block := v }
  | .caseFeeder => { l with cases := v }
  | .jacket => { l with jacket := v }

/-- Form a FEED order: the last level sent is set as it is formed (R50), the order waits for the event's other
messages (R52). -/
def formFeed (f : Feeder) (v : FeedLevel) (e : Ev) : Ev :=
  { e with s := { e.s with feed := e.s.feed.set v f }, feeds := e.feeds ++ [(f, v)] }

/-- FEED PAUSE for the block, case and jacket feeders, in that order (R51, R52). -/
def formPauses (e : Ev) : Ev :=
  formFeed .jacket .pause (formFeed .caseFeeder .pause (formFeed .block .pause e))

/-- Enter HALT with `c` alone in the cause set, STOP_N low, and HALTED logged (R132, R133). -/
def enterHalt (c : Cause) (e : Ev) : Ev :=
  logAlert .halted 0 0 0 (BitVec.ofNat 16 (CauseSet.empty.add c).weight)
    { e with s := { e.s with rc := ⟨.halt, CauseSet.empty.add c, .low⟩ } }

/-- Raise a halt cause, with the outcome R132 gives for the run state found. -/
def raiseCause (c : Cause) (e : Ev) : Ev :=
  match e.s.rc.state with
  | .config => e
  | .run => enterHalt c (formPauses e)
  | .drain => enterHalt c e
  | .halt => { e with s := { e.s with rc := { e.s.rc with causes := e.s.rc.causes.add c } } }

/-! ### The outbound queue -/

/-- A message of the part's own, with the own node number as SRC (R154). -/
def ownMessage (s : State) (kind : Kind) (dst : Node) (tag : Byte) (payload : List Byte) : Message :=
  ⟨dst, s.ring.ownNode, kind.code, tag, payload⟩

/-- The proof timer of a run in progress starts (R157). -/
def RingPort.startTimer (r : RingPort) : RingPort :=
  { r with proofRun := r.proofRun.map fun p => { p with timer := true } }

/-- PROOF 15, whose sending or dropping starts the proof timer (R157). -/
def isProof15 (m : Message) : Bool := m.kind == Kind.proof.code && m.tag == 15

/-- 256 × kind code + DST, the detail of OUTBOUND_FULL and NO_TAKER (R151, R154). -/
def kindDst (m : Message) : Word := m.kind ++ m.dst

/-- Hand a message of the part's own to the outbound queue: it joins at the tail, or at a full queue is dropped with
OUTBOUND_FULL logged and raised (R154). -/
def hand (m : Message) (e : Ev) : Ev :=
  if e.s.ring.outbound.length < Config.outboundCapacity then
    { e with s := { e.s with ring := { e.s.ring with outbound := e.s.ring.outbound ++ [m] } } }
  else
    raiseCause .outboundFull
      (logAlert .outboundFull 0 0 0 (kindDst m)
        (if isProof15 m then { e with s := { e.s with ring := e.s.ring.startTimer } } else e))

/-- Hand over messages in order. -/
def handAll : List Message → Ev → Ev
  | [], e => e
  | m :: ms, e => handAll ms (hand m e)

/-- The node of role `r` (1..9) in the line map (R155). -/
def LineMap.role (map : LineMap) (r : Nat) : Node := map.get (Fin.ofNat 9 (r - 1))

/-- The role of a feeder (Table 9-6). -/
def Feeder.role : Feeder → Nat
  | .block => 4
  | .caseFeeder => 5
  | .jacket => 6

/-- Hand a FEED order over, unless the line map leaves its role unassigned (R52). -/
def handFeed (f : Feeder × FeedLevel) (e : Ev) : Ev :=
  if e.s.lineMap.role f.1.role = 0 then e
  else hand (ownMessage e.s .feed (e.s.lineMap.role f.1.role) 0 [f.2.code]) e

/-- Hand over FEED orders in order. -/
def handFeeds : List (Feeder × FeedLevel) → Ev → Ev
  | [], e => e
  | f :: fs, e => handFeeds fs (handFeed f e)

/-- The FEED orders formed so far join the outbound queue (R52). -/
def flushFeeds (e : Ev) : Ev := handFeeds e.feeds { e with feeds := [] }

/-- The ALERT messages formed so far join the outbound queue; each gives the occupancy at its forming, 1 (R166). -/
def flushAlerts (e : Ev) : Ev :=
  handAll (List.replicate e.alertsDue (ownMessage e.s .alert 0 0 [1])) { e with alertsDue := 0 }

/-- The transmitter, when idle, begins the oldest forwarded message, else the head of the outbound queue (R153). DESIGN
CHOICE (log 27), unsafe: a forwarded message leaves the forward buffer as its sending begins, as R153 says of the
outbound queue only, so that one being sent does not count among the 2 that make the buffer full. -/
def RingPort.choose (r : RingPort) : RingPort :=
  match r.tx, r.forward, r.outbound with
  | .idle, m :: f, _ => { r with forward := f, tx := .forwarding m }
  | .idle, [], m :: q => { r with outbound := q, tx := .own m }
  | _, _, _ => r

/-- End an event: its FEED orders join, then its ALERT (R52, R166). A message dropped on the way may form FEED PAUSE
orders or a further ALERT, which join behind (log 11). Then an idle transmitter begins a message (R153, log 9),
once the power-on load is over (R170). -/
def finish (e : Ev) : State :=
  let s := (flushAlerts (flushFeeds (flushAlerts (flushFeeds (flushFeeds e))))).s
  if s.phase = .running then { s with ring := s.ring.choose } else s

/-! ### Feed levels -/

/-- The number of entries in a feeder's queue (R50). -/
def Queues.fedBy (q : Queues) : Feeder → Nat
  | .block => q.bq.length
  | .caseFeeder => q.cq.length
  | .jacket => q.jq.length

/-- The low mark of a feeder's queue (R49). -/
def Limits.low (l : Limits) : Feeder → Nat
  | .block => l.bqLow
  | .caseFeeder => l.cqLow
  | .jacket => l.jqLow

/-- The high mark of a feeder's queue (R49). -/
def Limits.high (l : Limits) : Feeder → Nat
  | .block => l.bqHigh
  | .caseFeeder => l.cqHigh
  | .jacket => l.jqHigh

/-- A feeder's computed level (R50). -/
def computedLevel (s : State) (f : Feeder) : FeedLevel :=
  if s.rc.state = .run then
    if s.queues.fedBy f < s.limits.low f then .high
    else if s.queues.fedBy f < s.limits.high f then .normal
    else .pause
  else .pause

/-- A computation after an occupancy change: an order is formed when the level differs from the last sent (R51). -/
def computeLevel (f : Feeder) (e : Ev) : Ev :=
  if computedLevel e.s f = e.s.feed.of f then e else formFeed f (computedLevel e.s f) e

/-- One computation for each queue whose occupancy the event has changed since `before` (R50). -/
def levelIfChanged (before : Queues) (f : Feeder) (e : Ev) : Ev :=
  if e.s.queues.fedBy f = before.fedBy f then e else computeLevel f e

/-- The feed level computations at the end of an event that found the queues as `before` (R50, R52). -/
def computeLevels (before : Queues) (e : Ev) : Ev :=
  levelIfChanged before .jacket (levelIfChanged before .caseFeeder (levelIfChanged before .block e))

/-- FEED orders with the computed levels of all three feeders, as at every entry into RUN (R51). -/
def formComputed (e : Ev) : Ev :=
  let e := formFeed .block (computedLevel e.s .block) e
  let e := formFeed .caseFeeder (computedLevel e.s .caseFeeder) e
  formFeed .jacket (computedLevel e.s .jacket) e

/-! ### Replies -/

/-- The REPLY to a CTRL request or to an unknown kind (Table 9-3). -/
def ctrlReply (s : State) (tag : Byte) (status : Status) (reason : Reason) : Message :=
  ownMessage s .reply 0 tag [status.code, reason.code]

/-- Answer a CTRL request (R129). -/
def answer (tag : Byte) (status : Status) (reason : Reason) (e : Ev) : Ev :=
  hand (ctrlReply e.s tag status reason) e

end Sys2Proof.Machine
end

