-- ==== Sys2Proof/Machine/Caliper.lean ====
section
/-! DEFINITION. The Caliper Correction Unit and the Dose Unit: caliper correction, tolerance and fit verdicts, shot
computation, and the records of both in messages (02_caliper_and_dose_arithmetic.md). -/

namespace Sys2Proof.Machine

/-! ### Caliper correction -/

/-- `v` brought into `lo..hi`. -/
def clampInt (lo hi v : Int) : Int := max lo (min hi v)

/-- Stage 1: the offset removed, after input saturation (R23). -/
def caliperX (c : Calibration) (rt : Nat) : Nat := (clampInt 0 16383 ((min 16383 rt : Nat) - c.ofs)).toNat

/-- Stage 2: the two-segment gain (R24). -/
def caliperU (c : Calibration) (x : Nat) : Nat :=
  if x ≤ c.brk then x * c.g1 else c.brk * c.g1 + (x - c.brk) * c.g2

/-- Stage 3: hundredths of a millimetre, rounded half up (R24). -/
def caliperB (u : Nat) : Nat := (u + 2048) / 4096

/-- Stage 4 and 5, before the division: p1 + p2 for a head reading (R23, R25). -/
def caliperSum (c : Calibration) (tr : Nat) : Int :=
  let dt : Int := (min 4095 tr : Nat) - c.tref
  c.tco * dt + c.tso * (dt * dt / 4096)

/-- Division by 65536 to nearest, halves away from zero (R25). -/
def caliperRound (v : Int) : Int :=
  if 0 ≤ v then (v + 32768) / 65536 else -((-v + 32768) / 65536)

/-- A caliper correction: the corrected thickness, and whether the final clamp changed it (R26). -/
structure Corrected where
  thickness : Nat
  clamped : Bool
  deriving DecidableEq, Repr

/-- c before the final clamp (R26). -/
def caliperRaw (c : Calibration) (rt tr : Nat) : Int :=
  (caliperB (caliperU c (caliperX c rt)) : Nat) + caliperRound (caliperSum c tr)

/-- The corrected thickness of raw readings `rt` and `tr` (R23 to R26). -/
def correct (c : Calibration) (rt tr : Nat) : Corrected :=
  { thickness := (clampInt 0 12000 (caliperRaw c rt tr)).toNat
    clamped := decide (caliperRaw c rt tr < 0) || decide (12000 < caliperRaw c rt tr) }

/-- In tolerance: not clamped, and within Tt of Tn (R27). -/
def Corrected.inTolerance (c : Corrected) (d : TitleData) : Bool :=
  !c.clamped && decide (c.thickness ≤ d.tn + d.tt) && decide (d.tn ≤ c.thickness + d.tt)

/-- The fit of a case to a block: spine less corrected thickness (R28). -/
def fitOf (spine thickness : Nat) : Int := (spine : Int) - thickness

/-- The fit verdict (R28). -/
def fits (d : TitleData) (spine thickness : Nat) : Bool :=
  decide ((d.amin : Int) ≤ fitOf spine thickness) && decide (fitOf spine thickness ≤ d.amax)

/-! ### Dose -/

/-- One side's shots, new carry, and clamp (R32 to R34). -/
structure DoseSide where
  shots : Nat
  carry : Nat
  clamped : Bool
  deriving DecidableEq, Repr

/-- The pasted area, 0.01 mm² (R32). -/
def pastedArea (d : TitleData) (r : Recipe) : Nat := (d.height - 2 * r.margin) * (d.width - r.margin)

/-- The shots of one side from its film, the recipe's shot size and the carry found (R32, R33, R34). -/
def doseSide (pasted : Bool) (area film shot carry : Nat) : DoseSide :=
  if pasted then
    let t := area * film / 100 + carry
    if Config.maxShots < t / shot then ⟨Config.maxShots, 0, true⟩ else ⟨t / shot, t - t / shot * shot, false⟩
  else ⟨0, carry, false⟩

/-- The carry number of a recipe's left side (R29). -/
def leftCarry (r : Fin 32) : Fin 64 := Fin.ofNat 64 (2 * r.val)

/-- The carry number of a recipe's right side (R29). -/
def rightCarry (r : Fin 32) : Fin 64 := Fin.ofNat 64 (2 * r.val + 1)

/-- The shots of a match, and the carries after it (R32 to R34). -/
structure Dosed where
  left : DoseSide
  right : DoseSide
  unit : DoseUnit
  deriving DecidableEq, Repr

/-- The Dose Unit's work at a match (R32 to R34). -/
def DoseUnit.dose (u : DoseUnit) (d : TitleData) : Dosed :=
  let r := u.recipes.get d.recipe
  let area := pastedArea d r
  let left := doseSide d.pasteLeft area r.filmLeft r.shot (u.carries.get (leftCarry d.recipe))
  let right := doseSide d.pasteRight area r.filmRight r.shot (u.carries.get (rightCarry d.recipe))
  { left := left
    right := right
    unit :=
      { u with carries := (u.carries.set (leftCarry d.recipe) left.carry).set (rightCarry d.recipe) right.carry } }

/-- All 64 carries 0 (R35). -/
def DoseUnit.clearCarries (u : DoseUnit) : DoseUnit := { u with carries := Table.fill 64 0 }

/-- Recipes written to successive indices from `i`, both carries of each set to 0 (R30). -/
def DoseUnit.write (u : DoseUnit) (i : Nat) : List Recipe → DoseUnit
  | [] => u
  | r :: rs =>
    DoseUnit.write
      { recipes := u.recipes.set (Fin.ofNat 32 i) r
        carries := (u.carries.set (leftCarry (Fin.ofNat 32 i)) 0).set (rightCarry (Fin.ofNat 32 i)) 0 }
      (i + 1) rs

/-! ### Records in messages -/

/-- Every field of a calibration record lies in its range (Table 2-1). -/
def Calibration.inRange (c : Calibration) : Bool :=
  decide (-2048 ≤ c.ofs ∧ c.ofs ≤ 2047 ∧ c.brk ≤ 16383 ∧ 1 ≤ c.g1 ∧ c.g1 ≤ 65535 ∧ 1 ≤ c.g2 ∧ c.g2 ≤ 65535
    ∧ c.tref ≤ 4095 ∧ -32768 ≤ c.tco ∧ c.tco ≤ 32767 ∧ -32768 ≤ c.tso ∧ c.tso ≤ 32767)

/-- The calibration record carried in 14 bytes (Table 9-5). -/
def Calibration.read (p : List Byte) : Calibration :=
  ⟨intAt2 p 0, natAt2 p 2, natAt2 p 4, natAt2 p 6, natAt2 p 8, intAt2 p 10, intAt2 p 12⟩

/-- A calibration record in 14 bytes (Table 9-5). -/
def Calibration.encode (c : Calibration) : List Byte :=
  int2 c.ofs ++ nat2 c.brk ++ nat2 c.g1 ++ nat2 c.g2 ++ nat2 c.tref ++ int2 c.tco ++ int2 c.tso

/-- Every field of a recipe lies in its range (Table 2-3). -/
def Recipe.inRange (r : Recipe) : Bool :=
  decide (r.filmLeft ≤ 500 ∧ r.filmRight ≤ 500 ∧ 1 ≤ r.shot ∧ r.shot ≤ 65535 ∧ r.margin ≤ 200)

/-- The recipe carried in 7 bytes (Table 9-5). -/
def Recipe.read (p : List Byte) : Recipe := ⟨natAt2 p 0, natAt2 p 2, natAt2 p 4, natAt1 p 6⟩

/-- The recipe carried in 7 bytes, or none when out of range (R30). -/
def Recipe.decode (p : List Byte) : Option Recipe :=
  if (Recipe.read p).inRange then some (Recipe.read p) else none

/-- A recipe in 7 bytes (Table 9-5). -/
def Recipe.encode (r : Recipe) : List Byte := nat2 r.filmLeft ++ nat2 r.filmRight ++ nat2 r.shot ++ [natByte r.margin]

end Sys2Proof.Machine
end

