-- ==== Sys2Proof/Machine/Tallies.lean ====
section
/-! DEFINITION. Tallies, run totals and the emptying of collections (07_jacketing_routing_and_tallies.md 7.6 and
7.7), and the drain completion that uses them (08_run_control.md R138). -/

namespace Sys2Proof.Machine

/-- The final account of one item (Table 7-3). -/
structure Tally where
  item : ItemType
  serial : Serial
  key : TitleKey
  route : Route
  stage : Stage
  reasons : List TallyReason
  thickness : Nat
  deriving DecidableEq, Repr

/-- The TALLY message, broadcast to node 63 (R121, Table 9-3). -/
def tallyMessage (s : State) (t : Tally) : Message :=
  ownMessage s .tally Config.broadcast 0
    ([t.item.code] ++ bytes4 t.serial ++ bytes3 t.key ++ [t.route.code, t.stage.code] ++ bytes2 (reasonBits t.reasons)
      ++ nat2 t.thickness)

/-- A run total increased by 1, saturating (R123). -/
def total1 (n : Nat) : Nat := satAdd Config.totalTop n 1

/-- The column of totals after a tally: the route's total, or the untracked total for serial 0 (R123). -/
def ItemTotals.tallied (c : ItemTotals) (serial : Serial) (route : Route) : ItemTotals :=
  if serial = 0 then { c with untracked := total1 c.untracked }
  else match route with
    | .good => { c with good := total1 c.good }
    | .inspect => { c with inspect := total1 c.inspect }
    | .reject => { c with reject := total1 c.reject }
    | .lost => { c with lost := total1 c.lost }
    | .purged => { c with purged := total1 c.purged }

/-- The column of totals of an item type (Table 7-5). -/
def Totals.of (t : Totals) : ItemType → ItemTotals
  | .block => t.blocks
  | .caseItem => t.cases
  | .jacket => t.jackets

/-- The totals with one column replaced. -/
def Totals.set (t : Totals) (c : ItemTotals) : ItemType → Totals
  | .block => { t with blocks := c }
  | .caseItem => { t with cases := c }
  | .jacket => { t with jackets := c }

/-- A tally increases exactly one total (R123). -/
def Totals.tallied (t : Totals) (y : Tally) : Totals := t.set ((t.of y.item).tallied y.serial y.route) y.item

/-- An accepted sighting increases the accepted total of its type (R123). -/
def Totals.sighted (t : Totals) (i : ItemType) : Totals :=
  t.set { t.of i with accepted := total1 (t.of i).accepted } i

/-- Tallies counted in order (R75, R121). -/
def Totals.talliedAll (t : Totals) : List Tally → Totals
  | [] => t
  | y :: ys => (t.tallied y).talliedAll ys

/-- Count tallies as their items leave tracking, whether or not their messages are sent (R75). -/
def countTallies (ys : List Tally) (e : Ev) : Ev :=
  { e with s := { e.s with totals := e.s.totals.talliedAll ys } }

/-- Hand over the TALLY messages of `ys` (R121). -/
def handTallies (ys : List Tally) (e : Ev) : Ev := handAll (ys.map (tallyMessage e.s)) e

/-! ### Reasons and tallies of held items -/

/-- A list holding `r` when `b` is set. -/
def reasonIf (b : Bool) (r : TallyReason) : List TallyReason := if b then [r] else []

/-- A block entry's flags as reasons (R67). -/
def BlockEntry.reasons (b : BlockEntry) : List TallyReason :=
  reasonIf b.title.isNone .unknownTitle ++ reasonIf b.offCaliper .offCaliper ++ reasonIf b.clamped .caliperClamped

/-- The title key of a block's tally: 0 for an unknown title (R75). -/
def BlockEntry.tallyKey (b : BlockEntry) : TitleKey := if b.title.isNone then 0 else b.key

/-- A book record's flags as reasons (R117). -/
def BookFlags.reasons (f : BookFlags) : List TallyReason :=
  reasonIf f.doseClamped .doseClamped ++ reasonIf f.heatSuspect .heatSuspect ++ reasonIf f.untracked .untracked

/-- The tally of a block entry. -/
def BlockEntry.tally (b : BlockEntry) (route : Route) (stage : Stage) (reasons : List TallyReason) : Tally :=
  ⟨.block, b.serial, b.tallyKey, route, stage, reasons, b.thickness⟩

/-- The tally of a case entry. -/
def CaseEntry.tally (c : CaseEntry) (route : Route) (stage : Stage) (reasons : List TallyReason) : Tally :=
  ⟨.caseItem, c.serial, 0, route, stage, reasons, 0⟩

/-- The tally of a jacket entry. -/
def JacketEntry.tally (j : JacketEntry) (route : Route) (stage : Stage) (reasons : List TallyReason) : Tally :=
  ⟨.jacket, j.serial, 0, route, stage, reasons, 0⟩

/-- The tally of a book record, with `more` beside its flags among the reasons. -/
def BookRecord.tally (r : BookRecord) (route : Route) (stage : Stage) (more : List TallyReason) : Tally :=
  ⟨.block, r.serial, r.key, route, stage, r.flags.reasons ++ more, r.thickness⟩

/-- The tally of a phantom: serial 0, REJECT, UNTRACKED (R63, R109). -/
def phantomTally (item : ItemType) (stage : Stage) : Tally := ⟨item, 0, 0, .reject, stage, [.untracked], 0⟩

/-! ### Emptying collections -/

/-- The PURGED tallies of a collection, from its head, or from position 1 (R122). -/
def Queues.purgeTallies (q : Queues) : Collection → List Tally
  | .bq => q.bq.map fun b => b.tally .purged .queue b.reasons
  | .cq => q.cq.map fun c => c.tally .purged .queue []
  | .jq => q.jq.map fun j => j.tally .purged .queue []
  | .tq => q.tq.map fun r => r.tally .purged .queue []
  | .pt => q.pt.records.map fun r => r.tally .purged .queue []
  | .aq => q.aq.map fun r => r.tally .purged .queue []

/-- The collections with one emptied (R140). -/
def Queues.clear (q : Queues) : Collection → Queues
  | .bq => { q with bq := [] }
  | .cq => { q with cq := [] }
  | .jq => { q with jq := [] }
  | .tq => { q with tq := [] }
  | .pt => { q with pt := PressTrain.empty }
  | .aq => { q with aq := [] }

/-- Empty one collection: its PURGED tallies are counted and answered with the event (R122). -/
def purgeOne (c : Collection) (e : Ev) : List Tally × Ev :=
  let ys := e.s.queues.purgeTallies c
  (ys, countTallies ys { e with s := { e.s with queues := e.s.queues.clear c } })

/-- Empty collections in order. -/
def purgeAll : List Collection → Ev → List Tally × Ev
  | [], e => ([], e)
  | c :: cs, e =>
    let (ys, e) := purgeOne c e
    let (zs, e) := purgeAll cs e
    (ys ++ zs, e)

/-- Enter CONFIG: causes emptied, STOP_N released (R127, R134). -/
def enterConfig (e : Ev) : Ev := { e with s := { e.s with rc := RunControl.config } }

/-! ### Drain completion -/

/-- BQ, TQ, PT and AQ are all empty, every press position included (R138). -/
def Queues.drained (q : Queues) : Bool :=
  q.bq.isEmpty && q.tq.isEmpty && q.pt.records.isEmpty && q.aq.isEmpty

/-- Complete a drain: the leftovers of CQ and JQ are tallied PURGED, DRAINED is logged with their number, CONFIG is
entered, and the tallies join the outbound queue (R138; log 10 for the order within the completion). -/
def completeDrain (e : Ev) : Ev :=
  let (ys, e) := purgeAll [.cq, .jq] e
  handTallies ys (enterConfig (logAlert .drained 0 0 0 (BitVec.ofNat 16 ys.length) e))

/-- The check for drain completion (R138). -/
def checkDrain (e : Ev) : Ev :=
  if e.s.rc.state = .drain ∧ e.s.queues.drained = true then completeDrain e else e

end Sys2Proof.Machine
end

