-- ==== Sys2Proof/Machine/Merging.lean ====
section
/-! DEFINITION. What the three merge points share: cycle continuity, presence reconciliation and starving
(04_the_casing_cycle.md 4.2 and 4.5), and the end of a cycle. -/

namespace Sys2Proof.Machine

/-! ### Continuity -/

/-- A machine's last cycle number (R57). -/
def Cycles.last (c : Cycles) : Merge → Option Word
  | .casing => c.lastCasing
  | .press => c.lastPress
  | .jacketer => c.lastJacket

/-- The cycles with a machine's last cycle number set (R57). -/
def Cycles.setLast (c : Cycles) (n : Word) : Merge → Cycles
  | .casing => { c with lastCasing := some n }
  | .press => { c with lastPress := some n }
  | .jacketer => { c with lastJacket := some n }

/-- A cycle number passes when the last is any or the number is the last plus 1, wrapping (R58). -/
def inSequence (last : Option Word) (n : Word) : Bool :=
  match last with
  | none => true
  | some l => n == l + 1

/-- The continuity check: a gap logs CYCLE_GAP and raises TRACKING; the number becomes the last in any case (R57,
R58). -/
def continuity (m : Merge) (n : Word) (e : Ev) : Ev :=
  let ok := inSequence (e.s.cycles.last m) n
  let e := { e with s := { e.s with cycles := e.s.cycles.setLast n m } }
  if ok then e else raiseCause .tracking (logAlert .cycleGap m.stage.code 0 0 n e)

/-! ### Reconciliation -/

/-- The outcome of reconciling one kind (Table 4-3); a head lost is gone from its queue. -/
inductive Presence (α : Type) where
  | available (x : α)
  | phantom
  | absent (x : α)
  | lost (x : α)
  | nothing
  deriving DecidableEq, Repr

/-- The available head, if any. -/
def Presence.head {α : Type} : Presence α → Option α
  | .available x => some x
  | _ => none

/-- Whether the machine holds an item without an entry. -/
def Presence.isPhantom {α : Type} : Presence α → Bool
  | .phantom => true
  | _ => false

/-- A presence flag set against a queue (R62, R63, R64): the outcome, and the queue after it. `wait` and `setWait`
reach the counts of an entry. -/
def reconcile {α : Type} (wait : α → Waiting) (setWait : Waiting → α → α) (flag : Bool) (limit : Nat) :
    List α → Presence α × List α
  | [] => (if flag then .phantom else .nothing, [])
  | x :: xs =>
    if flag then
      let y := setWait { wait x with absent := 0 } x
      (.available y, y :: xs)
    else
      let y := setWait { wait x with absent := (wait x).absent + 1 } x
      if (wait x).absent + 1 < limit then (.absent y, y :: xs) else (.lost y, xs)

/-- The alert of a reconciliation: PHANTOM, or ITEM_LOST for a head lost (R63, R64). -/
def presenceAlert {α : Type} (m : Merge) (c : Collection) (serial : α → Serial) (key : α → TitleKey)
    (p : Presence α) (e : Ev) : Ev :=
  match p with
  | .phantom => logAlert .phantom m.stage.code 0 0 (BitVec.ofNat 16 m.role) e
  | .lost x => logAlert .itemLost m.stage.code (serial x) (key x) (BitVec.ofNat 16 c.code) e
  | _ => e

/-! ### Starving -/

/-- The counts of a head starved at a cycle: the starved count rises, and reaching the limit sets the mark (R65). -/
def Waiting.starve (w : Waiting) (limit : Nat) : Waiting :=
  let n := satAdd Config.starvedTop w.starved 1
  { w with starved := n, mark := w.mark || decide (limit ≤ n) }

/-- Whether starving these counts logs STARVED: the limit reached while the mark is clear (R65). -/
def Waiting.starveAlerts (w : Waiting) (limit : Nat) : Bool := !w.mark && (w.starve limit).mark

/-- Log STARVED for a head whose counts were `w`, if due (R65). -/
def starveAlert (m : Merge) (c : Collection) (limit : Nat) (serial : Serial) (key : TitleKey) (w : Waiting)
    (e : Ev) : Ev :=
  if w.starveAlerts limit then logAlert .starved m.stage.code serial key (BitVec.ofNat 16 c.code) e else e

/-- The head of a queue replaced by its starved self (R65). -/
def starveHead {α : Type} (wait : α → Waiting) (setWait : Waiting → α → α) (limit : Nat) : List α → List α
  | [] => []
  | x :: xs => setWait ((wait x).starve limit) x :: xs

/-! ### Entries' counts -/

def BlockEntry.setWait (w : Waiting) (b : BlockEntry) : BlockEntry := { b with wait := w }
def CaseEntry.setWait (w : Waiting) (c : CaseEntry) : CaseEntry := { c with wait := w }
def JacketEntry.setWait (w : Waiting) (j : JacketEntry) : JacketEntry := { j with wait := w }
def BookRecord.setWait (w : Waiting) (r : BookRecord) : BookRecord := { r with wait := w }

/-! ### The tally of a reconciliation -/

/-- The tally of a head lost (R64, R82, R108). -/
def lostTally {α : Type} (tally : α → Tally) : Presence α → List Tally
  | .lost x => [tally x]
  | _ => []

/-- The tally of a phantom (R63, R109). -/
def phantomTallies {α : Type} (item : ItemType) (stage : Stage) (p : Presence α) : List Tally :=
  if p.isPhantom then [phantomTally item stage] else []

/-- The end of a cycle: its order and tallies join the outbound queue, drain completion is checked when the cycle
removed a record from BQ, TQ, PT or AQ, and the feed levels are computed (R76, R92, R119, R138, R50). `before` is
what the queues held as the cycle began. -/
def endCycle (before : Queues) (removed : Bool) (order : Message) (ys : List Tally) (e : Ev) : Ev :=
  let e := handTallies ys (hand order (countTallies ys e))
  computeLevels before (if removed then checkDrain e else e)

end Sys2Proof.Machine
end

