-- ==== Sys2Proof/Machine/Casing.lean ====
section
/-! DEFINITION. The casing cycle: the decision on the block head and the case head, its effects, and the CASEIN
order (04_the_casing_cycle.md). -/

namespace Sys2Proof.Machine

/-- A block flagged UNKNOWN_TITLE or OFF_CALIPER (R67). -/
def BlockEntry.flagged (b : BlockEntry) : Bool := b.title.isNone || b.offCaliper

/-- The cases of the casing decision (R66 to R73). -/
inductive CasingCase where
  /-- R67 -/
  | flagged (b : BlockEntry)
  /-- R68, the right case within the lookahead -/
  | wrongCase (c : CaseEntry)
  /-- R68, not within the lookahead -/
  | noCase (b : BlockEntry)
  /-- R69, below the limit -/
  | misfit (b : BlockEntry) (c : CaseEntry)
  /-- R69, at the limit -/
  | misfitLimit (b : BlockEntry) (c : CaseEntry)
  /-- R70 -/
  | matched (b : BlockEntry) (c : CaseEntry) (d : TitleData)
  /-- R73, block without case -/
  | blockWaits (b : BlockEntry)
  /-- R73, case without block -/
  | caseWaits (c : CaseEntry)
  /-- R73, neither -/
  | neither
  deriving DecidableEq, Repr

/-- The lookahead: some entry of `behind` within the window has the key (R68). -/
def caseAhead (window : Nat) (key : ItemKey) (behind : List CaseEntry) : Bool :=
  (behind.take window).any fun c => c.key == key

/-- The decision on the available heads, `behind` being CQ from position 2 (R66). -/
def casingCase (l : Limits) (behind : List CaseEntry) : Option BlockEntry → Option CaseEntry → CasingCase
  | some b, some c =>
    match b.title with
    | none => .flagged b
    | some f =>
      if b.offCaliper then .flagged b
      else if c.key ≠ f.data.caseKey then
        if caseAhead l.caseWindow f.data.caseKey behind then .wrongCase c else .noCase b
      else if fits f.data c.spine b.thickness then .matched b c f.data
      else if b.fitFail + 1 < l.fitFail then .misfit b c
      else .misfitLimit b c
  | some b, none => .blockWaits b
  | none, some c => .caseWaits c
  | none, none => .neither

/-- What the CASEIN order says of the decision, and the tallies it forms: those of the decision, then that of a book
record lost at TQ overflow (R76). -/
structure CasingOut where
  block : BlockAction
  caseItem : CaseAction
  left : Nat
  right : Nat
  tallies : List Tally
  deriving DecidableEq, Repr

/-- The book record of a match (R71, Table 4-4). -/
def bookOf (b : BlockEntry) (d : TitleData) (clamped : Bool) : BookRecord :=
  ⟨b.serial, b.key, b.thickness, d.jacketKey, some d.profile, ⟨false, clamped, false⟩, Waiting.fresh⟩

/-- DOSE_CLAMPED for a clamped side (R34). -/
def doseAlert (clamped : Bool) (carry : Fin 64) (b : BlockEntry) (e : Ev) : Ev :=
  if clamped then logAlert .doseClamped Stage.casing.code b.serial b.key (BitVec.ofNat 16 carry.val) e else e

/-- The book record joins TQ, or at a full TQ is lost with QUEUE_OVERFLOW and OVERFLOW; the tallies formed (R72). -/
def joinTransfer (r : BookRecord) (e : Ev) : List Tally × Ev :=
  if e.s.queues.tq.length < Config.tqCapacity then
    ([], { e with s := { e.s with queues := { e.s.queues with tq := e.s.queues.tq ++ [r] } } })
  else
    ([r.tally .lost .casing []],
      raiseCause .overflow
        (logAlert .queueOverflow Stage.casing.code r.serial r.key (BitVec.ofNat 16 Collection.tq.code) e))

/-- A MATCH: shots computed, both heads taken, the case tallied GOOD, the book record into TQ (R70). -/
def casingMatch (b : BlockEntry) (c : CaseEntry) (d : TitleData) (e : Ev) : CasingOut × Ev :=
  let x := e.s.dose.dose d
  let q := e.s.queues
  let e := { e with s := { e.s with dose := x.unit, queues := { q with bq := q.bq.tail, cq := q.cq.tail } } }
  let e := doseAlert x.right.clamped (rightCarry d.recipe) b (doseAlert x.left.clamped (leftCarry d.recipe) b e)
  let (lost, e) := joinTransfer (bookOf b d (x.left.clamped || x.right.clamped)) e
  (⟨.take, .take, x.left.shots, x.right.shots, c.tally .good .casing [] :: lost⟩, e)

/-- The collections with BQ or CQ replaced. -/
def setBq (q : List BlockEntry) (e : Ev) : Ev := { e with s := { e.s with queues := { e.s.queues with bq := q } } }
def setCq (q : List CaseEntry) (e : Ev) : Ev := { e with s := { e.s with queues := { e.s.queues with cq := q } } }

/-- The effects of the casing decision (R67 to R73). The actions of the missing kinds are NONE here; a phantom's
action takes their place in the order. -/
def casingApply (l : Limits) (d : CasingCase) (e : Ev) : CasingOut × Ev :=
  let q := e.s.queues
  match d with
  | .flagged b => (⟨.divert, .hold, 0, 0, [b.tally .reject .casing b.reasons]⟩, setBq q.bq.tail e)
  | .wrongCase c => (⟨.hold, .eject, 0, 0, [c.tally .reject .casing [.wrongCase]]⟩, setCq q.cq.tail e)
  | .noCase b => (⟨.divert, .hold, 0, 0, [b.tally .reject .casing [.noCase]]⟩, setBq q.bq.tail e)
  | .misfit b c =>
    (⟨.hold, .eject, 0, 0, [c.tally .reject .casing [.fit]]⟩,
      setCq q.cq.tail (setBq ({ b with fitFail := b.fitFail + 1 } :: q.bq.tail) e))
  | .misfitLimit b c =>
    (⟨.divert, .eject, 0, 0, [b.tally .reject .casing [.fit], c.tally .reject .casing [.fit]]⟩,
      setCq q.cq.tail (setBq q.bq.tail e))
  | .matched b c t => casingMatch b c t e
  | .blockWaits b =>
    (⟨.hold, .none, 0, 0, []⟩,
      starveAlert .casing .bq l.casingWait b.serial b.key b.wait
        (setBq (starveHead BlockEntry.wait BlockEntry.setWait l.casingWait q.bq) e))
  | .caseWaits c =>
    (⟨.none, .hold, 0, 0, []⟩,
      starveAlert .casing .cq l.casingWait c.serial 0 c.wait
        (setCq (starveHead CaseEntry.wait CaseEntry.setWait l.casingWait q.cq) e))
  | .neither => (⟨.none, .none, 0, 0, []⟩, e)

/-- The CASEIN order (R74, Table 9-3), a phantom's action standing in place of NONE (R66). -/
def caseinOrder (s : State) (n : Word) (pb : Presence BlockEntry) (pc : Presence CaseEntry) (o : CasingOut) :
    Message :=
  ownMessage s .casein (s.lineMap.role 7) 0
    (bytes2 n
      ++ [(if pb.isPhantom then BlockAction.divert else o.block).code,
        (if pc.isPhantom then CaseAction.eject else o.caseItem).code]
      ++ nat2 o.left ++ nat2 o.right
      ++ bytes4 ((pb.head.map BlockEntry.serial).getD 0))

/-- The casing cycle stamp advanced (R60). -/
def advanceStamp (e : Ev) : Ev :=
  { e with s := { e.s with cycles := { e.s.cycles with stamp := e.s.cycles.stamp + 1 } } }

/-- Reconciliation of the block against BQ (R62 to R64). -/
def reconcileBq (flag : Bool) (e : Ev) : Presence BlockEntry × Ev :=
  let r := reconcile BlockEntry.wait BlockEntry.setWait flag e.s.limits.casingWait e.s.queues.bq
  (r.1, presenceAlert .casing .bq BlockEntry.serial BlockEntry.key r.1 (setBq r.2 e))

/-- Reconciliation of the case against CQ (R62 to R64). -/
def reconcileCq (flag : Bool) (e : Ev) : Presence CaseEntry × Ev :=
  let r := reconcile CaseEntry.wait CaseEntry.setWait flag e.s.limits.casingWait e.s.queues.cq
  (r.1, presenceAlert .casing .cq CaseEntry.serial (fun _ => 0) r.1 (setCq r.2 e))

/-- The tallies of a casing cycle in the order their messages join (R76). -/
def casingTallies (pb : Presence BlockEntry) (pc : Presence CaseEntry) (o : CasingOut) : List Tally :=
  lostTally (fun b => b.tally .lost .queue b.reasons) pb ++ lostTally (fun c => c.tally .lost .queue []) pc
    ++ phantomTallies .block .casing pb ++ phantomTallies .caseItem .casing pc ++ o.tallies

/-- A taken casing CYCLE of number `n` with presence flags `block` and `caseFlag` (R66). -/
def casingCycle (n : Word) (block caseFlag : Bool) (e : Ev) : Ev :=
  let before := e.s.queues
  let e := continuity .casing n (advanceStamp e)
  let (pb, e) := reconcileBq block e
  let (pc, e) := reconcileCq caseFlag e
  let (o, e) := casingApply e.s.limits (casingCase e.s.limits e.s.queues.cq.tail pb.head pc.head) e
  endCycle before (decide (e.s.queues.bq.length < before.bq.length)) (caseinOrder e.s n pb pc o)
    (casingTallies pb pc o) e

end Sys2Proof.Machine
end

