-- ==== Sys2Proof/Machine/Titles.lean ====
section
/-! DEFINITION. The Title Table's operations: key lookup, proof-copy lookup, title records and their checks,
protection, COPY and the swap at MARK (01_title_table.md). The requests that use them are in Writes and Control. -/

namespace Sys2Proof.Machine

/-! ### Banks -/

/-- A bank by name (R1). -/
def TitleTable.bank (t : TitleTable) : BankName → Bank
  | .a => t.bankA
  | .b => t.bankB

/-- The active bank (R1). -/
def TitleTable.activeBank (t : TitleTable) : Bank := t.bank t.active

/-- The standby bank (R1). -/
def TitleTable.standbyBank (t : TitleTable) : Bank := t.bank t.active.other

/-- The table with its standby bank replaced. -/
def TitleTable.setStandby (t : TitleTable) (b : Bank) : TitleTable :=
  match t.active with
  | .a => { t with bankB := b }
  | .b => { t with bankA := b }

/-- A slot is occupied when its key is nonzero (R1). -/
def TitleRecord.occupied (r : TitleRecord) : Bool := r.key != 0

/-- Whether a bank holds at least one occupied slot (R10, R130). -/
def Bank.hasTitle (b : Bank) : Bool := b.list.any TitleRecord.occupied

/-- The keys of the occupied slots. -/
def Bank.keys (b : Bank) : List TitleKey := (b.list.map TitleRecord.key).filter fun k => k != 0

/-- No two occupied slots hold the same key (R5). -/
def Bank.keysUnique (b : Bank) : Bool := decide (Bank.keys b).Nodup

/-! ### Lookups -/

/-- The first index of `xs` at or behind `i` whose record holds `key`. -/
def findSlot (key : TitleKey) : Nat → List TitleRecord → Option Nat
  | _, [] => none
  | i, r :: rs => if r.key = key then some i else findSlot key (i + 1) rs

/-- The slot of the active bank that holds `key`; none for key 0 (R3). -/
def TitleTable.slotOf (t : TitleTable) (key : TitleKey) : Option (Fin 512) :=
  if key = 0 then none else (findSlot key 0 t.activeBank.list).map (Fin.ofNat 512)

/-- The key lookup of a block sighting: slot and snapshot, or none (R3). -/
def TitleTable.lookup (t : TitleTable) (key : TitleKey) : Option Found :=
  (t.slotOf key).map fun i => ⟨i, (t.activeBank.get i).data⟩

/-- The proof-copy lookup: whether the book is a proof copy, and the table with the count decreased if it is (R16). -/
def TitleTable.proofLookup (t : TitleTable) (key : TitleKey) : Bool × TitleTable :=
  match t.slotOf key with
  | some i =>
    if 0 < t.proofLeft.get i then (true, { t with proofLeft := t.proofLeft.set i (t.proofLeft.get i - 1) })
    else (false, t)
  | none => (false, t)

/-- The proof remaining counts loaded from the active bank (R15). -/
def TitleTable.loadProofs (t : TitleTable) : TitleTable :=
  { t with proofLeft := t.activeBank.map TitleRecord.proofCount }

/-! ### Protection, COPY and the swap -/

/-- The first protected slot at a protect level; the protected slots run from it to 511 (Table 1-2). -/
def protectedFrom : Fin 4 → Nat
  | 0 => 512
  | 1 => 384
  | 2 => 256
  | 3 => 0

/-- Whether a slot is protected (R8). -/
def TitleTable.isProtected (t : TitleTable) (slot : Nat) : Bool := decide (protectedFrom t.protect ≤ slot)

/-- The standby bank as it would stand after COPY: unprotected slots from the active bank, protected ones kept. The
unprotected slots are the lower ones (R12, Table 1-2). -/
def TitleTable.copied (t : TitleTable) : Bank :=
  ⟨t.activeBank.list.take (protectedFrom t.protect) ++ t.standbyBank.list.drop (protectedFrom t.protect), by
    have h1 := t.activeBank.len
    have h2 := t.standbyBank.len
    have h3 : protectedFrom t.protect ≤ 512 := by
      generalize t.protect = p
      revert p
      decide
    simp only [List.length_append, List.length_take, List.length_drop]
    omega⟩

/-- The banks exchanged at an armed MARK: flag cleared, proof counts loaded (R14). -/
def TitleTable.swap (t : TitleTable) : TitleTable :=
  TitleTable.loadProofs { t with active := t.active.other, armed := false }

/-- The Title Table at a line reset (R18). -/
def TitleTable.lineReset (t : TitleTable) : TitleTable :=
  { t with armed := false, proofLeft := Table.fill 512 0 }

/-! ### Title records in messages -/

/-- The record carried in 23 bytes (Table 9-5), or none when a field lies outside Table 1-1 (R2). A record whose key
is 0 empties its slot whatever else it holds. -/
def TitleRecord.decode (p : List Byte) : Option TitleRecord :=
  if keyAt p 0 = 0 then some TitleRecord.empty
  else if wordAt p 3 ≠ 0 ∧ 100 ≤ natAt2 p 7 ∧ natAt2 p 7 ≤ 12000 ∧ natAt2 p 9 ≤ 1000 ∧ natAt2 p 11 ≤ 2000
      ∧ natAt2 p 13 ≤ 2000 ∧ natAt2 p 11 ≤ natAt2 p 13 ∧ 500 ≤ natAt2 p 15 ∧ natAt2 p 15 ≤ 4500
      ∧ 500 ≤ natAt2 p 17 ∧ natAt2 p 17 ≤ 3500 ∧ natAt1 p 19 ≤ 31 ∧ natAt1 p 20 ≤ 63 ∧ natAt1 p 22 ≤ 7 then
    some
      { key := keyAt p 0
        data :=
          { caseKey := wordAt p 3, jacketKey := wordAt p 5, tn := natAt2 p 7, tt := natAt2 p 9, amin := natAt2 p 11,
            amax := natAt2 p 13, height := natAt2 p 15, width := natAt2 p 17, recipe := Fin.ofNat 32 (natAt1 p 19),
            profile := Fin.ofNat 64 (natAt1 p 20), pasteLeft := bitSet (byteAt p 21) 0,
            pasteRight := bitSet (byteAt p 21) 1 }
        proofCount := natAt1 p 22 }
  else none

/-- The fields from case key to paste flags as they are sent (Tables 9-5 and 10-4). -/
def TitleData.encode (d : TitleData) : List Byte :=
  bytes2 d.caseKey ++ bytes2 d.jacketKey ++ nat2 d.tn ++ nat2 d.tt ++ nat2 d.amin ++ nat2 d.amax ++ nat2 d.height
    ++ nat2 d.width ++ [natByte d.recipe.val, natByte d.profile.val, packBits [d.pasteLeft, d.pasteRight]]

/-- A title record in 23 bytes (Table 9-5). -/
def TitleRecord.encode (r : TitleRecord) : List Byte := bytes3 r.key ++ r.data.encode ++ [natByte r.proofCount]

/-- Every record decoded, or none when one of them is out of range. -/
def decodeAll {α : Type} (f : List Byte → Option α) : List (List Byte) → Option (List α)
  | [] => some []
  | p :: ps =>
    match f p, decodeAll f ps with
    | some x, some xs => some (x :: xs)
    | _, _ => none

end Sys2Proof.Machine
end

