-- ==== Sys2Proof/Machine/Sightings.lean ====
section
/-! DEFINITION. Sightings: the checks of a SIGHT and the entries it makes (03_sightings_and_infeed_queues.md). -/

namespace Sys2Proof.Machine

/-- The payload length of a SIGHT of a role (Table 3-1). -/
def sightLength (role : Nat) : Nat := if role = 1 then 12 else if role = 2 then 9 else 7

/-- The first failing condition of the form check, if any (R38). -/
def badSighting (p : List Byte) : Option Nat :=
  if p = [] ∨ natAt1 p 0 < 1 ∨ 3 < natAt1 p 0 then some 1
  else if p.length ≠ sightLength (natAt1 p 0) then some 2
  else if serialAt p 1 = 0 then some 3
  else if natAt1 p 0 ≠ 1 ∧ wordAt p 5 = 0 then some 4
  else if natAt1 p 0 = 2 ∧ 15000 < natAt2 p 7 then some 5
  else none

/-- The role field of a payload when it lies in `lo..hi`, else 0. -/
def roleField (p : List Byte) (lo hi : Nat) : Byte :=
  if p ≠ [] ∧ lo ≤ natAt1 p 0 ∧ natAt1 p 0 ≤ hi then byteAt p 0 else 0

/-- The serial of a SIGHT long enough to hold one, else 0 (R38). -/
def sightSerial (p : List Byte) : Serial := if 5 ≤ p.length then serialAt p 1 else 0

/-- The source check: the line map names `src` for the role; an unassigned role matches no source (R39, R155). -/
def LineMap.matches (map : LineMap) (role : Nat) (src : Node) : Bool :=
  map.role role != 0 && map.role role == src

/-- Where a block's serial is held, among BQ, TQ, PT and AQ (R40). -/
def Queues.holds (q : Queues) (serial : Serial) : Option Collection :=
  if q.bq.any fun b => b.serial == serial then some .bq
  else if q.tq.any fun r => r.serial == serial then some .tq
  else if q.pt.records.any fun r => r.serial == serial then some .pt
  else if q.aq.any fun r => r.serial == serial then some .aq
  else none

/-- An overflow: QUEUE_OVERFLOW logged, OVERFLOW raised, nothing appended (R42). -/
def sightOverflow (role : Byte) (serial : Serial) (key : TitleKey) (c : Collection) (e : Ev) : Ev :=
  raiseCause .overflow (logAlert .queueOverflow role serial key (BitVec.ofNat 16 c.code) e)

/-- A re-read behind the tail: SERIAL_REPEAT with the collection that holds the serial (R40, R41). -/
def serialRepeat (role : Byte) (serial : Serial) (key : TitleKey) (c : Collection) (e : Ev) : Ev :=
  logAlert .serialRepeat role serial key (BitVec.ofNat 16 c.code) e

/-- The BQ entry of a block sighting (R43, Table 3-3). -/
def blockEntry (s : State) (p : List Byte) : BlockEntry :=
  match s.titles.lookup (keyAt p 5) with
  | none => ⟨serialAt p 1, keyAt p 5, none, 0, false, false, Waiting.fresh, 0⟩
  | some f =>
    let c := correct s.ccu.record (natAt2 p 8) (natAt2 p 10)
    ⟨serialAt p 1, keyAt p 5, some f, c.thickness, !c.inTolerance f.data, c.clamped, Waiting.fresh, 0⟩

/-- The alert of a block's flags, if any (R43). -/
def blockAlert (b : BlockEntry) (e : Ev) : Ev :=
  if b.title.isNone then logAlert .unknownTitle 1 b.serial b.key 0 e
  else if b.clamped then logAlert .caliperClamped 1 b.serial b.key (BitVec.ofNat 16 b.thickness) e
  else if b.offCaliper then logAlert .offCaliper 1 b.serial b.key (BitVec.ofNat 16 b.thickness) e
  else e

/-- A sighting appended: the queues are `q` and the accepted total of the type rises by 1 (R44, R45, R46). -/
def enqueue (q : Queues) (item : ItemType) (e : Ev) : Ev :=
  { e with s := { e.s with queues := q, totals := e.s.totals.sighted item } }

/-- A block sighting that has passed the form and source checks (R40, R42, R43, R44). -/
def sightBlock (p : List Byte) (e : Ev) : Ev :=
  let q := e.s.queues
  match q.holds (serialAt p 1) with
  | some c =>
    if q.bq.getLast?.map BlockEntry.serial = some (serialAt p 1) then e
    else serialRepeat 1 (serialAt p 1) (keyAt p 5) c e
  | none =>
    if q.bq.length < Config.bqCapacity then
      let b := blockEntry e.s p
      computeLevels q (enqueue { q with bq := q.bq ++ [b] } .block (blockAlert b e))
    else sightOverflow 1 (serialAt p 1) (keyAt p 5) .bq e

/-- A case sighting that has passed the form and source checks (R41, R42, R45). -/
def sightCase (p : List Byte) (e : Ev) : Ev :=
  let q := e.s.queues
  if q.cq.any fun c => c.serial == serialAt p 1 then
    if q.cq.getLast?.map CaseEntry.serial = some (serialAt p 1) then e
    else serialRepeat 2 (serialAt p 1) 0 .cq e
  else if q.cq.length < Config.cqCapacity then
    computeLevels q
      (enqueue { q with cq := q.cq ++ [⟨serialAt p 1, wordAt p 5, natAt2 p 7, Waiting.fresh⟩] } .caseItem e)
  else sightOverflow 2 (serialAt p 1) 0 .cq e

/-- A jacket sighting that has passed the form and source checks (R41, R42, R46). -/
def sightJacket (p : List Byte) (e : Ev) : Ev :=
  let q := e.s.queues
  if q.jq.any fun j => j.serial == serialAt p 1 then
    if q.jq.getLast?.map JacketEntry.serial = some (serialAt p 1) then e
    else serialRepeat 3 (serialAt p 1) 0 .jq e
  else if q.jq.length < Config.jqCapacity then
    computeLevels q (enqueue { q with jq := q.jq ++ [⟨serialAt p 1, wordAt p 5, Waiting.fresh⟩] } .jacket e)
  else sightOverflow 3 (serialAt p 1) 0 .jq e

/-- A SIGHT from `src` at the Tracking Engine: ignored in CONFIG, else checked in turn (R37, R38, R39). -/
def sight (src : Node) (p : List Byte) (e : Ev) : Ev :=
  if e.s.rc.state = .config then e
  else match badSighting p with
    | some n => logAlert .badSighting (roleField p 1 3) (sightSerial p) 0 (BitVec.ofNat 16 n) e
    | none =>
      if e.s.lineMap.matches (natAt1 p 0) src then
        if natAt1 p 0 = 1 then sightBlock p e
        else if natAt1 p 0 = 2 then sightCase p e
        else sightJacket p e
      else logAlert .roleMismatch (byteAt p 0) (serialAt p 1) 0 (src.setWidth 16) e

end Sys2Proof.Machine
end

