-- ==== Sys2Proof/Machine/Iron.lean ====
section
/-! DEFINITION. The Iron Monitor: SENSE messages, the comparators, the bank records and the in-alarm question
(06_joint_iron_monitoring.md). -/

namespace Sys2Proof.Machine

/-- The bank of a comparator index (R95). -/
def bankOf (i : Fin 4) : IronBank := if i.val < 2 then .forward else .rear

/-- A bank record (R95). -/
def IronMonitor.bank (m : IronMonitor) : IronBank → BankRecord
  | .forward => m.forward
  | .rear => m.rear

/-- The monitor with a bank record replaced. -/
def IronMonitor.setBank (m : IronMonitor) (r : BankRecord) : IronBank → IronMonitor
  | .forward => { m with forward := r }
  | .rear => { m with rear := r }

/-- The condition a comparator tests in its present state: the on-condition when OFF, the off-condition when ON
(Table 6-4). -/
def Comparator.tests (c : Comparator) (reading : Int) : Bool :=
  match c.config.direction, c.on with
  | .above, false => decide (c.config.onThreshold < reading)
  | .above, true => decide (reading ≤ c.config.offThreshold)
  | .below, false => decide (reading < c.config.onThreshold)
  | .below, true => decide (c.config.offThreshold ≤ reading)

/-- A comparator after a reading (R97, R98). -/
def Comparator.read (c : Comparator) (reading : Int) : Comparator :=
  if c.config.enable then
    if c.tests reading then
      if c.tally + 1 = c.config.confirm then { c with on := !c.on, tally := 0 }
      else { c with tally := c.tally + 1 }
    else { c with tally := 0 }
  else c

/-- Comparator `i` after a reading, its change of condition logged (R97, R98). -/
def senseComparator (i : Fin 4) (reading : Int) (e : Ev) : Ev :=
  let c := e.s.iron.comparators.get i
  let e' := { e with s := { e.s with iron :=
    { e.s.iron with comparators := e.s.iron.comparators.set i (c.read reading) } } }
  if (c.read reading).on = c.on then e'
  else logAlert (if c.on then .ironAlarmOff else .ironAlarmOn) Stage.press.code 0 0 (BitVec.ofNat 16 i.val) e'

/-- The two comparators of a bank, in index order (R98). -/
def comparatorsOf : IronBank → List (Fin 4)
  | .forward => [0, 1]
  | .rear => [2, 3]

/-- Readings of several comparators in order. -/
def senseComparators : List (Fin 4) → Int → Ev → Ev
  | [], _, e => e
  | i :: is, reading, e => senseComparators is reading (senseComparator i reading e)

/-- A SENSE taken: its bank's comparators read, its bank FRESH with counter 0 (R96 to R99). -/
def senseTaken (b : IronBank) (reading : Int) (e : Ev) : Ev :=
  let e := senseComparators (comparatorsOf b) (clampInt (-400) 3000 reading) e
  { e with s := { e.s with iron := e.s.iron.setBank ⟨.fresh, 0⟩ b } }

/-- A SENSE rejected: ROLE_MISMATCH, but in CONFIG without an alert (R96). -/
def senseRejected (src : Node) (e : Ev) : Ev :=
  if e.s.rc.state = .config then e else logAlert .roleMismatch 8 0 0 (src.setWidth 16) e

/-- The bank a SENSE payload names, when its form is right (R96, Table 6-3). -/
def senseBank (p : List Byte) : Option IronBank :=
  if p.length = 3 then
    if byteAt p 0 = 0 then some .forward else if byteAt p 0 = 1 then some .rear else none
  else none

/-- A SENSE from `src` at the Iron Monitor (R96). -/
def sense (src : Node) (p : List Byte) (e : Ev) : Ev :=
  match senseBank p with
  | none => senseRejected src e
  | some b => if e.s.lineMap.matches 8 src then senseTaken b (intAt2 p 1) e else senseRejected src e

/-- Whether a comparator holds its bank in alarm (R100). -/
def Comparator.alarming (c : Comparator) : Bool := c.config.enable && c.on

/-- A bank is in alarm when an enabled comparator of it is ON or it is STALE (R100). -/
def IronMonitor.inAlarm (m : IronMonitor) (b : IronBank) : Bool :=
  (comparatorsOf b).any (fun i => (m.comparators.get i).alarming) || (m.bank b).sense == .stale

/-- A bank record after a stale advance (R101). -/
def BankRecord.advance (r : BankRecord) (limit : Nat) : BankRecord :=
  let n := min limit (r.counter + 1)
  ⟨if r.sense = .fresh ∧ n = limit then .stale else r.sense, n⟩

/-- One bank's stale advance, SENSE_STALE logged when it becomes STALE (R101). -/
def advanceBank (b : IronBank) (e : Ev) : Ev :=
  let r := e.s.iron.bank b
  let r' := r.advance e.s.limits.stale
  let e' := { e with s := { e.s with iron := e.s.iron.setBank r' b } }
  if r'.sense = r.sense then e' else logAlert .senseStale Stage.press.code 0 0 (BitVec.ofNat 16 b.code) e'

/-- The stale advance of both banks, FORWARD first (R101). -/
def advanceStale (e : Ev) : Ev := advanceBank .rear (advanceBank .forward e)

/-! ### Comparator records in messages -/

/-- A configuration's values lie in their ranges, and its thresholds in their order (R103). -/
def ComparatorConfig.inRange (c : ComparatorConfig) : Bool :=
  decide (1 ≤ c.confirm ∧ c.confirm ≤ 4 ∧ -400 ≤ c.onThreshold ∧ c.onThreshold ≤ 3000 ∧ -400 ≤ c.offThreshold
    ∧ c.offThreshold ≤ 3000)
  && match c.direction with
    | .above => decide (c.offThreshold ≤ c.onThreshold)
    | .below => decide (c.onThreshold ≤ c.offThreshold)

/-- Every field of a record lies in the range of a WRITE (R103). -/
def ComparatorRecord.inRange (r : ComparatorRecord) : Bool :=
  decide (r.direction.toNat ≤ 1 ∧ r.enable.toNat ≤ 1) && r.config.inRange

/-- The record carried in 7 bytes (Table 6-5). -/
def ComparatorRecord.read (p : List Byte) : ComparatorRecord :=
  ⟨byteAt p 0, byteAt p 1, natAt1 p 2, intAt2 p 3, intAt2 p 5⟩

/-- The configuration carried in 7 bytes, or none when out of range (R103, Table 6-5). -/
def ComparatorConfig.decode (p : List Byte) : Option ComparatorConfig :=
  if (ComparatorRecord.read p).inRange then some (ComparatorRecord.read p).config else none

/-- A configuration in 7 bytes (Table 6-5). -/
def ComparatorConfig.encode (c : ComparatorConfig) : List Byte :=
  [c.direction.code, flagByte c.enable, natByte c.confirm] ++ int2 c.onThreshold ++ int2 c.offThreshold

/-- A comparator in 9 bytes (Table 6-5). -/
def Comparator.encode (c : Comparator) : List Byte := c.config.encode ++ [flagByte c.on, natByte c.tally]

end Sys2Proof.Machine
end

