-- ==== Sys2Proof/Machine/Press.lean ====
section
/-! DEFINITION. The press index: outfeed, shift, suspect marking, stale advance and the PRESS order, and press
profiles in messages (05_the_building_in_press.md). -/

namespace Sys2Proof.Machine

/-- The collections with TQ, PT or AQ replaced. -/
def setTq (q : List BookRecord) (e : Ev) : Ev := { e with s := { e.s with queues := { e.s.queues with tq := q } } }
def setPt (t : PressTrain) (e : Ev) : Ev := { e with s := { e.s with queues := { e.s.queues with pt := t } } }
def setAq (q : List BookRecord) (e : Ev) : Ev := { e with s := { e.s with queues := { e.s.queues with aq := q } } }

/-- The untracked book record of a phantom at the press infeed (R86). -/
def untrackedRecord : BookRecord := ⟨0, 0, 0, 0, none, ⟨false, false, true⟩, Waiting.fresh⟩

/-- The tally of a book record lost as the head of its queue (R82, R108). -/
def BookRecord.lostTally (r : BookRecord) : Tally := r.tally .lost .queue []

/-- Step 2: the infeed book reconciled against TQ (R82). -/
def reconcileTq (flag : Bool) (e : Ev) : Presence BookRecord × Ev :=
  let r := reconcile BookRecord.wait BookRecord.setWait flag e.s.limits.pressWait e.s.queues.tq
  (r.1, presenceAlert .press .tq BookRecord.serial BookRecord.key r.1 (setTq r.2 e))

/-- Step 3: the record at position 6 leaves for AQ with fresh counts, or at a full AQ is lost with QUEUE_OVERFLOW and
OVERFLOW; the tallies formed (R83, R85). -/
def outfeed (e : Ev) : List Tally × Ev :=
  match e.s.queues.pt.p6 with
  | none => ([], e)
  | some r =>
    let e := setPt { e.s.queues.pt with p6 := none } e
    if e.s.queues.aq.length < Config.aqCapacity then ([], setAq (e.s.queues.aq ++ [r.setWait Waiting.fresh]) e)
    else
      ([r.tally .lost .press []],
        raiseCause .overflow
          (logAlert .queueOverflow Stage.press.code r.serial r.key (BitVec.ofNat 16 Collection.aq.code) e))

/-- What enters position 1: the available TQ head, the untracked record of a phantom, or nothing (R84). -/
def infeed : Presence BookRecord → Option BookRecord
  | .available r => some r
  | .phantom => some untrackedRecord
  | _ => none

/-- Step 4: every position moves on by one and `r` enters position 1; an available head leaves TQ (R84). -/
def shift (p : Presence BookRecord) (e : Ev) : Ev :=
  let t := e.s.queues.pt
  let e := setPt ⟨infeed p, t.p1, t.p2, t.p3, t.p4, t.p5⟩ e
  if p.head.isSome then setTq e.s.queues.tq.tail e else e

/-- The profile a record is pressed by: the all-zero profile when it has none (R86, R87). -/
def profileOf (profiles : Table Profile 64) (r : BookRecord) : Profile :=
  match r.profile with
  | some i => profiles.get i
  | none => Profile.zero

/-- HEAT_SUSPECT added to a record (R89). -/
def BookRecord.suspect (r : BookRecord) : BookRecord := { r with flags := { r.flags with heatSuspect := true } }

/-- A position after suspect marking: marked when `entry` of its record's profile has heat set and its bank is in
alarm (R89). -/
def markPosition (s : State) (entry : Profile → ProfileEntry) (b : IronBank) :
    Option BookRecord → Option BookRecord
  | none => none
  | some r => some (if (entry (profileOf s.profiles r)).heat && s.iron.inAlarm b then r.suspect else r)

/-- Step 5: suspect marking of every occupied position (R89). -/
def markSuspects (e : Ev) : Ev :=
  let t := e.s.queues.pt
  setPt
    { p1 := markPosition e.s Profile.e1 .forward t.p1
      p2 := markPosition e.s Profile.e2 .forward t.p2
      p3 := markPosition e.s Profile.e3 .forward t.p3
      p4 := markPosition e.s Profile.e4 .rear t.p4
      p5 := markPosition e.s Profile.e5 .rear t.p5
      p6 := markPosition e.s Profile.e6 .rear t.p6 }
    e

/-- The setpoint of a position: its entry of the record's profile, or pressure 0 and heat clear when empty (R91). -/
def setpoint (profiles : Table Profile 64) (entry : Profile → ProfileEntry) : Option BookRecord → ProfileEntry
  | none => ⟨0, false⟩
  | some r => entry (profileOf profiles r)

/-- The setpoints of the six positions (R91). -/
def setpoints (profiles : Table Profile 64) (t : PressTrain) : List ProfileEntry :=
  [setpoint profiles Profile.e1 t.p1, setpoint profiles Profile.e2 t.p2, setpoint profiles Profile.e3 t.p3,
    setpoint profiles Profile.e4 t.p4, setpoint profiles Profile.e5 t.p5, setpoint profiles Profile.e6 t.p6]

/-- The PRESS order (R91, Table 9-3). -/
def pressOrder (s : State) (n : Word) (p : Presence BookRecord) : Message :=
  let sp := setpoints s.profiles s.queues.pt
  ownMessage s .press (s.lineMap.role 8) 0
    (bytes2 n ++ sp.map ProfileEntry.pressure
      ++ [packBits (sp.map ProfileEntry.heat), packBits (s.queues.pt.positions.map Option.isSome)]
      ++ bytes4 (((infeed p).map BookRecord.serial).getD 0))

/-- A taken press CYCLE of number `n` with its infeed flag (R81). -/
def pressIndex (n : Word) (flag : Bool) (e : Ev) : Ev :=
  let before := e.s.queues
  let (p, e) := reconcileTq flag (continuity .press n e)
  let (lost, e) := outfeed e
  let e := advanceStale (markSuspects (shift p e))
  endCycle before (decide (e.s.queues.tq.length < before.tq.length) || before.pt.p6.isSome) (pressOrder e.s n p)
    (lostTally BookRecord.lostTally p ++ lost) e

/-! ### Profiles in messages -/

/-- Every heat byte of a record is 0 or 1 (R88); a pressure may be any byte. -/
def ProfileRecord.inRange (r : ProfileRecord) : Bool := r.entries.all fun e => decide (e.heat.toNat ≤ 1)

/-- The record carried in 12 bytes (Table 9-5). -/
def ProfileRecord.read (p : List Byte) : ProfileRecord :=
  ⟨⟨byteAt p 0, byteAt p 1⟩, ⟨byteAt p 2, byteAt p 3⟩, ⟨byteAt p 4, byteAt p 5⟩, ⟨byteAt p 6, byteAt p 7⟩,
    ⟨byteAt p 8, byteAt p 9⟩, ⟨byteAt p 10, byteAt p 11⟩⟩

/-- The profile carried in 12 bytes, or none when a heat byte is out of range (R88, Table 9-5). -/
def Profile.decode (p : List Byte) : Option Profile :=
  if (ProfileRecord.read p).inRange then some (ProfileRecord.read p).profile else none

/-- A profile in 12 bytes (Table 9-5). -/
def Profile.encode (p : Profile) : List Byte := p.entries.flatMap fun x => [x.pressure, flagByte x.heat]

end Sys2Proof.Machine
end

