-- ==== Sys2Proof/Machine/Jacketer.lean ====
section
/-! DEFINITION. The jacket cycle: the decision on the book head and the jacket head, the route of a passed book, and
the JACKET order (07_jacketing_routing_and_tallies.md). -/

namespace Sys2Proof.Machine

/-- The collections with JQ replaced. -/
def setJq (q : List JacketEntry) (e : Ev) : Ev := { e with s := { e.s with queues := { e.s.queues with jq := q } } }

/-- The cases of the jacket decision (R111). -/
inductive JacketCase where
  /-- R112 -/
  | unjacketed (k : BookRecord)
  /-- R113, the right jacket within the lookahead -/
  | wrongJacket (j : JacketEntry)
  /-- R113, not within the lookahead -/
  | noJacket (k : BookRecord)
  /-- R114 -/
  | apply (k : BookRecord) (j : JacketEntry)
  /-- R115, book without jacket -/
  | bookWaits (k : BookRecord)
  /-- R115, jacket without book -/
  | jacketWaits (j : JacketEntry)
  /-- R115, neither -/
  | neither
  deriving DecidableEq, Repr

/-- The lookahead: some entry of `behind` within the window has the key (R113). -/
def jacketAhead (window : Nat) (key : ItemKey) (behind : List JacketEntry) : Bool :=
  (behind.take window).any fun j => j.key == key

/-- The decision on the available heads, `behind` being JQ from position 2 (R111). -/
def jacketCase (l : Limits) (behind : List JacketEntry) : Option BookRecord → Option JacketEntry → JacketCase
  | some k, some j =>
    if k.jacketKey = 0 then .unjacketed k
    else if j.key ≠ k.jacketKey then
      if jacketAhead l.jacketWindow k.jacketKey behind then .wrongJacket j else .noJacket k
    else .apply k j
  | some k, none => if k.jacketKey = 0 then .unjacketed k else .bookWaits k
  | none, some j => .jacketWaits j
  | none, none => .neither

/-- The route of a passed book and the reasons it adds to the record's flags (R116, R117). -/
structure Routed where
  route : Route
  more : List TallyReason
  deriving DecidableEq, Repr

/-- The route of a passed book, by the first test of R116 that holds; the proof-copy lookup is made only when the
first two fail. -/
def routeBook (k : BookRecord) (without : Bool) (e : Ev) : Routed × Ev :=
  if k.flags.untracked then (⟨.reject, reasonIf without .noJacket⟩, e)
  else if k.flags.heatSuspect || k.flags.doseClamped || without then (⟨.inspect, reasonIf without .noJacket⟩, e)
  else
    let x := e.s.titles.proofLookup k.key
    (if x.1 then ⟨.inspect, [.proofCopy]⟩ else ⟨.good, []⟩, { e with s := { e.s with titles := x.2 } })

/-- What the JACKET order says of the decision, and the tallies it forms. -/
structure JacketOut where
  book : BookAction
  jacket : JacketAction
  route : Option Route
  tallies : List Tally
  deriving DecidableEq, Repr

/-- A book passed: it leaves AQ, is routed and tallied (R112 to R117). -/
def passBook (k : BookRecord) (without : Bool) (action : JacketAction) (more : List Tally) (e : Ev) :
    JacketOut × Ev :=
  let (r, e) := routeBook k without (setAq e.s.queues.aq.tail e)
  (⟨.pass, action, some r.route, k.tally r.route .jacketing r.more :: more⟩, e)

/-- The effects of the jacket decision (R111 to R115). The actions of missing kinds are NONE here; a phantom's action
takes their place in the order. -/
def jacketApply (l : Limits) (d : JacketCase) (e : Ev) : JacketOut × Ev :=
  let q := e.s.queues
  match d with
  | .unjacketed k => passBook k false .none [] e
  | .wrongJacket j =>
    (⟨.hold, .eject, none, [j.tally .reject .jacketing [.wrongJacket]]⟩, setJq q.jq.tail e)
  | .noJacket k => passBook k true .hold [] e
  | .apply k j => passBook k false .apply [j.tally .good .jacketing []] (setJq q.jq.tail e)
  | .bookWaits k =>
    (⟨.hold, .none, none, []⟩,
      starveAlert .jacketer .aq l.jacketWait k.serial k.key k.wait
        (setAq (starveHead BookRecord.wait BookRecord.setWait l.jacketWait q.aq) e))
  | .jacketWaits j =>
    (⟨.none, .hold, none, []⟩,
      starveAlert .jacketer .jq l.jacketWait j.serial 0 j.wait
        (setJq (starveHead JacketEntry.wait JacketEntry.setWait l.jacketWait q.jq) e))
  | .neither => (⟨.none, .none, none, []⟩, e)

/-- The route field of a JACKET order: REJECT for a phantom book, else that of the passed book, else 0 (R118). -/
def routeField (pk : Presence BookRecord) (o : JacketOut) : Byte :=
  if pk.isPhantom then Route.reject.code else (o.route.map Route.code).getD 0

/-- The JACKET order (R118, Table 9-3), a phantom's action standing in place of NONE (R111). -/
def jacketOrder (s : State) (n : Word) (pk : Presence BookRecord) (pj : Presence JacketEntry) (o : JacketOut) :
    Message :=
  ownMessage s .jacket (s.lineMap.role 9) 0
    (bytes2 n
      ++ [(if pk.isPhantom then BookAction.pass else o.book).code,
        (if pj.isPhantom then JacketAction.eject else o.jacket).code, routeField pk o]
      ++ bytes4 ((pk.head.map BookRecord.serial).getD 0))

/-- Step 2 for the book, against AQ (R108). -/
def reconcileAq (flag : Bool) (e : Ev) : Presence BookRecord × Ev :=
  let r := reconcile BookRecord.wait BookRecord.setWait flag e.s.limits.jacketWait e.s.queues.aq
  (r.1, presenceAlert .jacketer .aq BookRecord.serial BookRecord.key r.1 (setAq r.2 e))

/-- Step 2 for the jacket, against JQ (R108). -/
def reconcileJq (flag : Bool) (e : Ev) : Presence JacketEntry × Ev :=
  let r := reconcile JacketEntry.wait JacketEntry.setWait flag e.s.limits.jacketWait e.s.queues.jq
  (r.1, presenceAlert .jacketer .jq JacketEntry.serial (fun _ => 0) r.1 (setJq r.2 e))

/-- The tallies of a jacket cycle in the order their messages join (R119). -/
def jacketTallies (pk : Presence BookRecord) (pj : Presence JacketEntry) (o : JacketOut) : List Tally :=
  lostTally BookRecord.lostTally pk ++ lostTally (fun j => j.tally .lost .queue []) pj
    ++ phantomTallies .block .jacketing pk ++ phantomTallies .jacket .jacketing pj ++ o.tallies

/-- A taken jacket CYCLE of number `n` with presence flags `book` and `jacketFlag` (R107). -/
def jacketCycle (n : Word) (book jacketFlag : Bool) (e : Ev) : Ev :=
  let before := e.s.queues
  let (pk, e) := reconcileAq book (continuity .jacketer n e)
  let (pj, e) := reconcileJq jacketFlag e
  let (o, e) := jacketApply e.s.limits (jacketCase e.s.limits e.s.queues.jq.tail pk.head pj.head) e
  endCycle before (decide (e.s.queues.aq.length < before.aq.length)) (jacketOrder e.s n pk pj o)
    (jacketTallies pk pj o) e

end Sys2Proof.Machine
end

