-- ==== Sys2Proof/Machine/Proofs.lean ====
section
/-! DEFINITION. The proof run: its sixteen messages, their return, and its end (09_the_line_ring.md 9.7). -/

namespace Sys2Proof.Machine

/-- The pattern byte of a PROOF index at position `j` (R156). -/
def proofByte (index j : Nat) : Byte := BitVec.ofNat 8 (index * 17 + j)

/-- The payload of a PROOF message (R156, Table 9-3). -/
def proofPayload (index : Nat) : List Byte := natByte index :: (List.range 32).map (proofByte index)

/-- The PROOF message of an index, addressed to the own node with TAG equal to the index (R156). -/
def proofMessage (s : State) (index : Nat) : Message :=
  ownMessage s .proof s.ring.ownNode (natByte index) (proofPayload index)

/-- The sixteen PROOF messages in index order (R156). -/
def proofMessages (s : State) : List Message := (List.range 16).map (proofMessage s)

/-- A returned PROOF is intact: LEN 33, index 0..15 equal to the TAG, the pattern as sent (R157). -/
def proofIntact (m : Message) : Bool :=
  decide (m.payload.length = 33) && decide (natAt1 m.payload 0 ≤ 15) && byteAt m.payload 0 == m.tag
    && m.payload == proofPayload (natAt1 m.payload 0)

/-- The proof run ends: the result is PASS when all sixteen returned intact, and PROOF_DONE is logged with the error
count (R157). -/
def endProof (run : ProofRun) (e : Ev) : Ev :=
  let errors := 16 - run.intact.list.count true
  logAlert .proofDone 0 0 0 (BitVec.ofNat 16 errors)
    { e with s := { e.s with ring :=
      { e.s.ring with proofRun := none, proofResult := if errors = 0 then .pass else .fail } } }

/-- A PROOF stripped: compared while a run is in progress, where index 15 ends the run; else discarded (R151, R157). -/
def proofReturned (m : Message) (e : Ev) : Ev :=
  match e.s.ring.proofRun with
  | none => e
  | some run =>
    let run := if proofIntact m then
      { run with intact := run.intact.set (Fin.ofNat 16 (natAt1 m.payload 0)) true } else run
    let e := { e with s := { e.s with ring := { e.s.ring with proofRun := some run } } }
    if m.payload ≠ [] ∧ natAt1 m.payload 0 = 15 then endProof run e else e

/-- 50 ms have passed since the timer started (R157). -/
def proofExpired (e : Ev) : Ev :=
  match e.s.ring.proofRun with
  | none => e
  | some run => if run.timer then endProof run e else e

end Sys2Proof.Machine
end

