-- ==== Sys2Proof/Machine/Settings.lean ====
section
/-! DEFINITION. The stored settings: the working copies, the STORE operation, power-on reset and the power-on load
(11_stored_settings_and_start_up.md; the power-on values of each chapter). -/

namespace Sys2Proof.Machine

/-! ### Working copies -/

/-- The seven working copies as they stand (R172). -/
def State.settings (s : State) : Settings where
  node := s.ring.ownNode
  caliper := s.ccu
  comparators := s.iron.comparators.map fun c => c.config.record
  limits := s.limits
  lineMap := s.lineMap
  recipes := ⟨s.dose.recipes, s.profiles.map Profile.record⟩
  protect := BitVec.ofNat 8 s.titles.protect.val

/-! ### STORE -/

/-- The marker of a group erased (R172). -/
def StoreGroup.erase {α : Type} (g : StoreGroup α) : StoreGroup α := { g with marker := false }

/-- A group completely written with `x`: fresh words, marker set (R173). -/
def StoreGroup.write {α : Type} (_ : StoreGroup α) (x : α) : StoreGroup α := ⟨true, x, .clean⟩

/-- A STORE begins: snapshot taken, every marker erased (R172). -/
def Store.begin (t : Store) (w : Settings) : Store where
  node := t.node.erase
  caliper := t.caliper.erase
  comparators := t.comparators.erase
  limits := t.limits.erase
  lineMap := t.lineMap.erase
  recipes := t.recipes.erase
  protect := t.protect.erase
  op := .inFlight w

/-- A group after a STORE that wrote groups 1 to `written`, `number` being the group's: written, or left with its
marker missing (R173, R174). -/
def StoreGroup.stored {α : Type} (g : StoreGroup α) (number written : Nat) (x : α) : StoreGroup α :=
  if number ≤ written then g.write x else g.erase

/-- The groups as a STORE of snapshot `w` leaves them after writing groups 1 to `written`; the operation idle (R173,
R174). -/
def Store.ended (t : Store) (written : Nat) (w : Settings) : Store where
  node := t.node.stored 1 written w.node
  caliper := t.caliper.stored 2 written w.caliper
  comparators := t.comparators.stored 3 written w.comparators
  limits := t.limits.stored 4 written w.limits
  lineMap := t.lineMap.stored 5 written w.lineMap
  recipes := t.recipes.stored 6 written w.recipes
  protect := t.protect.stored 7 written w.protect
  op := .idle

/-- The end of a STORE in flight: all seven groups written, STORE_DONE with detail 7 (R173). -/
def storeDone (e : Ev) : Ev :=
  match e.s.store.op with
  | .idle => e
  | .inFlight w => logAlert .storeDone 0 0 0 7 { e with s := { e.s with store := e.s.store.ended 7 w } }

/-- The store when power fails or RESET_N goes low, a STORE in flight having written `written` groups (R174). -/
def Store.interrupted (t : Store) (written : Nat) : Store :=
  match t.op with
  | .idle => t
  | .inFlight w => t.ended written w

/-! ### Power-on reset -/

/-- Power-on reset: every block takes its power-on values, the working copies standing at their defaults until the
load (R144; log 2), and a STORE in flight is cut off (R174). -/
def powerOnReset (written : Nat) (s : State) : State :=
  State.powerOn s.pending s.pins (s.store.interrupted written) Settings.default

/-! ### The power-on load -/

/-- The worse of two findings about a group's words. -/
def CellHealth.worse : CellHealth → CellHealth → CellHealth
  | .uncorrectable, _ => .uncorrectable
  | _, .uncorrectable => .uncorrectable
  | .corrected, _ => .corrected
  | _, .corrected => .corrected
  | .clean, .clean => .clean

/-- A group after what has happened to its cells: an error stays until the group is rewritten (R170), and changed words
read as they now stand (log 14). -/
def StoreGroup.aged {α : Type} (g : StoreGroup α) (c : GroupCells α) : StoreGroup α :=
  { g with content := c.reads.getD g.content, health := CellHealth.worse g.health c.health }

/-- How the load judges a group (R170). -/
inductive Judged where
  | clean
  | fixed
  | bad
  deriving DecidableEq, Repr

/-- A group judged: bad without marker, with an uncorrectable word or a value out of range; else fixed or clean
(R170). -/
def StoreGroup.judge {α : Type} (g : StoreGroup α) (inRange : α → Bool) : Judged :=
  if g.marker && inRange g.content then
    match g.health with
    | .clean => .clean
    | .corrected => .fixed
    | .uncorrectable => .bad
  else .bad

/-- The working copy of a group: its content, or the default of a bad group (R170, R171). -/
def StoreGroup.load {α : Type} (g : StoreGroup α) (inRange : α → Bool) (default : α) : α :=
  if g.judge inRange = .bad then default else g.content

/-- The alert of a judged group, if any (R170). -/
def judgedAlert (number : Nat) (j : Judged) (e : Ev) : Ev :=
  match j with
  | .clean => e
  | .fixed => logAlert .storeFixed 0 0 0 (BitVec.ofNat 16 number) e
  | .bad => logAlert .storeBad 0 0 0 (BitVec.ofNat 16 number) e

/-- One queue's marks: 0 ≤ L < M ≤ capacity (R49). -/
def marksInRange (low high capacity : Nat) : Bool := decide (low < high ∧ high ≤ capacity)

/-- Every field of a LIMITS record lies in its range (R49, R61, R102). -/
def Limits.inRange (l : Limits) : Bool :=
  marksInRange l.bqLow l.bqHigh Config.bqCapacity && marksInRange l.cqLow l.cqHigh Config.cqCapacity
    && marksInRange l.jqLow l.jqHigh Config.jqCapacity
    && decide (l.caseWindow ≤ 4 ∧ l.jacketWindow ≤ 4 ∧ 1 ≤ l.casingWait ∧ l.casingWait ≤ 255 ∧ 1 ≤ l.pressWait
      ∧ l.pressWait ≤ 255 ∧ 1 ≤ l.jacketWait ∧ l.jacketWait ≤ 255 ∧ 1 ≤ l.fitFail ∧ l.fitFail ≤ 3 ∧ 1 ≤ l.stale
      ∧ l.stale ≤ 255)

/-- A station's node number, 1..62. -/
def stationNode (n : Node) : Bool := decide (1 ≤ n.toNat ∧ n.toNat ≤ 62)

/-- A stored line map: every entry 0..62 (R170). -/
def lineMapInRange (m : LineMap) : Bool := m.list.all fun n => decide (n.toNat ≤ 62)

/-- The stored comparator records: every one in the range of a WRITE (R103, R170). -/
def comparatorsInRange (t : Table ComparatorRecord 4) : Bool := t.list.all ComparatorRecord.inRange

/-- The stored recipes and profiles: every one in the range of a WRITE (R30, R88, R170). -/
def RecipeGroup.inRange (g : RecipeGroup) : Bool :=
  g.recipes.list.all Recipe.inRange && g.profiles.list.all ProfileRecord.inRange

/-- A protect level, 0..3 (R9). -/
def protectInRange (v : Byte) : Bool := decide (v.toNat ≤ 3)

/-- The store after what `c` says has happened to its cells. -/
def Store.aged (t : Store) (c : CellReport) : Store :=
  { t with
    node := t.node.aged c.node
    caliper := t.caliper.aged c.calibration
    comparators := t.comparators.aged c.comparators
    limits := t.limits.aged c.limits
    lineMap := t.lineMap.aged c.lineMap
    recipes := t.recipes.aged c.recipes
    protect := t.protect.aged c.protect }

/-- The judgement of each group, in group order (R170). -/
def Store.judgements (t : Store) : List Judged :=
  [t.node.judge stationNode, t.caliper.judge fun c => c.record.inRange,
    t.comparators.judge comparatorsInRange, t.limits.judge Limits.inRange,
    t.lineMap.judge lineMapInRange, t.recipes.judge RecipeGroup.inRange, t.protect.judge protectInRange]

/-- The working copies the load gives (R170, R171). -/
def Store.loaded (t : Store) : Settings where
  node := t.node.load stationNode Settings.default.node
  caliper := t.caliper.load (fun c => c.record.inRange) Settings.default.caliper
  comparators := t.comparators.load comparatorsInRange Settings.default.comparators
  limits := t.limits.load Limits.inRange Settings.default.limits
  lineMap := t.lineMap.load lineMapInRange Settings.default.lineMap
  recipes := t.recipes.load RecipeGroup.inRange Settings.default.recipes
  protect := t.protect.load protectInRange Settings.default.protect

/-- The alerts of the load, in group order from group `number` (R170). -/
def judgedAlerts : Nat → List Judged → Ev → Ev
  | _, [], e => e
  | n, j :: js, e => judgedAlerts (n + 1) js (judgedAlert n j e)

/-- The state with working copies `w` (R17, R22, R36, R53, R94, R105, R152, R155). -/
def State.withSettings (s : State) (w : Settings) : State :=
  { s with
    ring := { s.ring with ownNode := w.node }
    lineMap := w.lineMap
    titles := { s.titles with protect := protectLevel w.protect }
    ccu := w.caliper
    dose := { s.dose with recipes := w.recipes.recipes }
    limits := w.limits
    profiles := w.recipes.profiles.map ProfileRecord.profile
    iron := { s.iron with comparators := w.comparators.map fun r => Comparator.off r.config } }

/-- The power-on load when RESET_N rises (R170); without a reset to rise from there is none (log 4). -/
def powerOnLoad (cells : CellReport) (s : State) : State :=
  if s.phase = .held then
    let store := s.store.aged cells
    finish (judgedAlerts 1 store.judgements
      (Ev.start ({ s with phase := .loading, store := store }.withSettings store.loaded)))
  else s

end Sys2Proof.Machine
end

