-- ==== Sys2Proof/Machine/Control.lean ====
section
/-! DEFINITION. Run Control: the CTRL requests, line reset, and the requests of other blocks that travel as CTRL
(08_run_control.md; ARM, DISARM and COPY of chapter 1, PROOF of chapter 9, STORE of chapter 11). Each request first
makes its changes and then hands over its REPLY and the messages behind it (R129, log 10). -/

namespace Sys2Proof.Machine

/-! ### Starting a run -/

/-- The line map is complete: no role holds 0 (R155). -/
def LineMap.complete (m : LineMap) : Bool := m.list.all fun n => n != 0

/-- The first precondition of START that fails, if any (R130). -/
def startRefusal (s : State) : Option Reason :=
  if !s.ccu.valid then some .calMissing
  else if !(LineMap.complete s.lineMap) then some .mapIncomplete
  else if !(Bank.hasTitle s.titles.activeBank) then some .tableEmpty
  else if s.ring.proofResult = .fail then some .proofFailed
  else if s.ring.link ≠ .up then some .linkDown
  else none

/-- Enter RUN with no cause and STOP_N released (R127, R131, R136). -/
def enterRun (e : Ev) : Ev := { e with s := { e.s with rc := ⟨.run, CauseSet.empty, .released⟩ } }

/-- The last cycle numbers set to any (R57). -/
def Cycles.anyNumber (c : Cycles) : Cycles := { c with lastCasing := none, lastPress := none, lastJacket := none }

/-- The effects of an accepted START (R131). -/
def startRun (e : Ev) : Ev :=
  enterRun { e with s :=
    { e.s with
      dose := e.s.dose.clearCarries
      titles := e.s.titles.loadProofs
      cycles := e.s.cycles.anyNumber } }

/-- CTRL START (R130, R131). -/
def ctrlStart (tag : Byte) (e : Ev) : Ev :=
  if e.s.rc.state ≠ .config ∨ e.s.ring.proofRun.isSome then answer tag .state .none e
  else match startRefusal e.s with
    | some r => answer tag .refused r e
    | none => answer tag .ok .none (formComputed (startRun e))

/-! ### Halting, resuming, draining -/

/-- CTRL HALT (R135). -/
def ctrlHalt (tag : Byte) (e : Ev) : Ev :=
  if e.s.rc.state = .run ∨ e.s.rc.state = .drain then answer tag .ok .none (raiseCause .master e)
  else answer tag .state .none e

/-- The two conditions RESUME, and DRAIN from HALT, are tested on (R136, R137). -/
def leaveHaltRefusal (s : State) : Option (Status × Reason) :=
  if s.rc.causes.link ∧ s.ring.link ≠ .up then some (.refused, .causePersists)
  else if Config.resumeOccupancy < s.ring.outbound.length then some (.busy, .none)
  else none

/-- CTRL RESUME (R136). -/
def ctrlResume (tag : Byte) (e : Ev) : Ev :=
  if e.s.rc.state ≠ .halt then answer tag .state .none e
  else match leaveHaltRefusal e.s with
    | some (st, r) => answer tag st r e
    | none => answer tag .ok .none (formComputed (enterRun e))

/-- Enter DRAIN with no cause and STOP_N released (R127, R137). -/
def enterDrain (e : Ev) : Ev := { e with s := { e.s with rc := ⟨.drain, CauseSet.empty, .released⟩ } }

/-- CTRL DRAIN (R137): from RUN the exit forms FEED PAUSE; completion is checked at once. -/
def ctrlDrain (tag : Byte) (e : Ev) : Ev :=
  match e.s.rc.state with
  | .config => answer tag .state .none e
  | .drain => answer tag .state .none e
  | .run =>
    let before := e.s.queues
    computeLevels before (checkDrain (answer tag .ok .none (formPauses (enterDrain e))))
  | .halt =>
    match leaveHaltRefusal e.s with
    | some (st, r) => answer tag st r e
    | none =>
      let before := e.s.queues
      computeLevels before (checkDrain (answer tag .ok .none (enterDrain e)))

/-! ### Discarding work -/

/-- CTRL ABORT (R139). -/
def ctrlAbort (tag : Byte) (e : Ev) : Ev :=
  if e.s.rc.state ≠ .halt then answer tag .state .none e
  else
    let before := e.s.queues
    let (ys, e) := purgeAll [.bq, .cq, .jq, .tq, .pt, .aq] e
    let e := enterConfig (logAlert .purged 0 0 0 (BitVec.ofNat 16 ys.length) e)
    computeLevels before (handTallies ys (answer tag .ok .none e))

/-- CTRL PURGE with its argument (R140). -/
def ctrlPurge (tag arg : Byte) (e : Ev) : Ev :=
  match Collection.ofCode arg.toNat with
  | none => answer tag .range .none e
  | some c =>
    if e.s.rc.state ≠ .halt then answer tag .state .none e
    else
      let before := e.s.queues
      let (ys, e) := purgeOne c e
      let e := logAlert .purged 0 0 0 (BitVec.ofNat 16 (256 * c.code + ys.length)) e
      computeLevels before (handTallies ys (answer tag .ok .none e))

/-! ### Clearing and line reset -/

/-- CTRL CLEAR (R141). -/
def ctrlClear (tag : Byte) (e : Ev) : Ev :=
  answer tag .ok .none
    { e with s := { e.s with totals := Totals.zero, ring := { e.s.ring with linkErrors := 0 } } }

/-- The state at a line reset, `reply` alone in the outbound queue (R142, R143, Table 8-6). -/
def State.lineReset (s : State) (reply : Message) : State :=
  { s with
    ring := { s.ring with outbound := [reply], proofRun := none, proofResult := .none }
    titles := s.titles.lineReset
    dose := s.dose.clearCarries
    queues := Queues.empty
    cycles := Cycles.reset
    totals := Totals.zero
    iron := IronMonitor.reset (s.iron.comparators.map Comparator.config)
    rc := RunControl.config
    mu := Management.reset }

/-- CTRL RESET (R142): the line reset, the REPLY at the head of the outbound queue, FEED PAUSE behind it (R54). FEED
and ALERT messages the event had formed go with the outbound queue. -/
def ctrlReset (tag : Byte) (e : Ev) : Ev :=
  formPauses (Ev.start (e.s.lineReset (ctrlReply e.s tag .ok .none)))

/-! ### Bank changeover -/

/-- CTRL ARM (R10). -/
def ctrlArm (tag : Byte) (e : Ev) : Ev :=
  if Bank.hasTitle e.s.titles.standbyBank then
    answer tag .ok .none { e with s := { e.s with titles := { e.s.titles with armed := true } } }
  else answer tag .refused .tableEmpty e

/-- CTRL DISARM (R11). -/
def ctrlDisarm (tag : Byte) (e : Ev) : Ev :=
  answer tag .ok .none { e with s := { e.s with titles := { e.s.titles with armed := false } } }

/-- CTRL COPY (R12). -/
def ctrlCopy (tag : Byte) (e : Ev) : Ev :=
  if Bank.keysUnique e.s.titles.copied then
    answer tag .ok .none { e with s := { e.s with titles := e.s.titles.setStandby e.s.titles.copied } }
  else answer tag .duplicate .none e

/-! ### STORE and PROOF -/

/-- CTRL STORE (R172). DESIGN CHOICE (log 28), unsafe: R172 names BUSY and STATE without an order, and in HALT or DRAIN
with a STORE in flight the answer is BUSY. -/
def ctrlStore (tag : Byte) (e : Ev) : Ev :=
  if e.s.store.op ≠ .idle then answer tag .busy .none e
  else if e.s.rc.state = .halt ∨ e.s.rc.state = .drain then answer tag .state .none e
  else answer tag .ok .none { e with s := { e.s with store := e.s.store.begin e.s.settings } }

/-- CTRL PROOF (R156). -/
def ctrlProof (tag : Byte) (e : Ev) : Ev :=
  if e.s.ring.proofRun.isSome then answer tag .busy .none e
  else if e.s.rc.state ≠ .config then answer tag .state .none e
  else if e.s.ring.link ≠ .up then answer tag .refused .linkDown e
  else
    let e := { e with s := { e.s with ring := { e.s.ring with proofRun := some ⟨Table.fill 16 false, false⟩ } } }
    handAll (proofMessages e.s) (answer tag .ok .none e)

/-! ### Dispatch -/

/-- A CTRL request by its code (R129, Table 8-3). -/
def ctrlRequest (r : Request) (tag arg : Byte) (e : Ev) : Ev :=
  match r with
  | .start => ctrlStart tag e
  | .halt => ctrlHalt tag e
  | .resume => ctrlResume tag e
  | .drain => ctrlDrain tag e
  | .abort => ctrlAbort tag e
  | .purge => ctrlPurge tag arg e
  | .clear => ctrlClear tag e
  | .reset => ctrlReset tag e
  | .arm => ctrlArm tag e
  | .disarm => ctrlDisarm tag e
  | .copy => ctrlCopy tag e
  | .store => ctrlStore tag e
  | .proof => ctrlProof tag e

/-- A taken CTRL: its form is checked first (R129). -/
def ctrl (tag : Byte) (p : List Byte) (e : Ev) : Ev :=
  if p.length ≠ 2 then answer tag .length .none e
  else match Request.ofCode (byteAt p 0) with
    | none => answer tag .unknown .none e
    | some r => ctrlRequest r tag (byteAt p 1) e

end Sys2Proof.Machine
end

