-- ==== Sys2Proof/Machine/Writes.lean ====
section
/-! DEFINITION. WRITE requests: the form check, each region's checks in its own order, and the effect of an accepted
write (10_management_requests_and_alerts.md R159, R160, and the write rule of each region). A write is
all-or-nothing. -/

namespace Sys2Proof.Machine

/-- The fields every WRITE and READ opens with: region, index, count (Table 9-3). -/
def reqIndex (p : List Byte) : Nat := natAt2 p 1
def reqCount (p : List Byte) : Nat := natAt1 p 3

/-- The status, region, index and count of a REPLY; fields the request was too short to hold are 0 (R160; log 18 for an
index of which only one byte arrived). -/
def echo (status : Status) (p : List Byte) : List Byte :=
  [status.code, byteAt p 0] ++ bytes2 (if 3 ≤ p.length then wordAt p 1 else 0) ++ [byteAt p 3]

/-- Answer a WRITE, or a READ that carries no records (R160). -/
def respond (tag : Byte) (status : Status) (p : List Byte) (e : Ev) : Ev :=
  hand (ownMessage e.s .reply 0 tag (echo status p)) e

/-- Count in `lo..hi`, and LEN 4 plus `size` bytes for each record: the LENGTH check of a region. -/
def lengthOk (p : List Byte) (lo hi size : Nat) : Bool :=
  decide (lo ≤ reqCount p ∧ reqCount p ≤ hi ∧ p.length = 4 + size * reqCount p)

/-- The records a WRITE carries. -/
def recordsOf (p : List Byte) (size : Nat) : List (List Byte) := chunks size (reqCount p) (p.drop 4)

/-- The outcome of a region's checks: the status and, when OK, the state written. -/
abbrev Written := Status × State

/-- TITLE (R6): the standby bank, 1 or 2 slots, in every run state. -/
def writeTitle (p : List Byte) (s : State) : Written :=
  if !lengthOk p 1 2 23 then (.length, s)
  else match decodeAll TitleRecord.decode (recordsOf p 23) with
    | none => (.range, s)
    | some rs =>
      if 511 < reqIndex p then (.range, s)
      else if (List.range (reqCount p)).any fun k => s.titles.isProtected ((reqIndex p + k) % 512) then
        (.isProtected, s)
      else if Bank.keysUnique (s.titles.standbyBank.setFrom (reqIndex p) rs) then
        (.ok, { s with titles := s.titles.setStandby (s.titles.standbyBank.setFrom (reqIndex p) rs) })
      else (.duplicate, s)

/-- DOSE (R30): 1 to 4 recipes, their carries cleared, in CONFIG. -/
def writeDose (p : List Byte) (s : State) : Written :=
  if !lengthOk p 1 4 7 then (.length, s)
  else match decodeAll Recipe.decode (recordsOf p 7) with
    | none => (.range, s)
    | some rs =>
      if 31 < reqIndex p then (.range, s)
      else if s.rc.state ≠ .config then (.state, s)
      else (.ok, { s with dose := s.dose.write (reqIndex p) rs })

/-- PROFILE (R88): 1 to 4 profiles, in CONFIG. -/
def writeProfile (p : List Byte) (s : State) : Written :=
  if !lengthOk p 1 4 12 then (.length, s)
  else match decodeAll Profile.decode (recordsOf p 12) with
    | none => (.range, s)
    | some rs =>
      if 63 < reqIndex p then (.range, s)
      else if s.rc.state ≠ .config then (.state, s)
      else (.ok, { s with profiles := s.profiles.setFrom (reqIndex p) rs })

/-- CALIBRATION (R20): the record and the flag valid, in CONFIG. -/
def writeCalibration (p : List Byte) (s : State) : Written :=
  if !lengthOk p 1 1 14 then (.length, s)
  else if reqIndex p ≠ 0 ∨ !(Calibration.read (p.drop 4)).inRange then (.range, s)
  else if s.rc.state ≠ .config then (.state, s)
  else (.ok, { s with ccu := ⟨Calibration.read (p.drop 4), true⟩ })

/-- The LIMITS record carried in 13 bytes (Table 9-5). -/
def Limits.read (p : List Byte) : Limits :=
  ⟨natAt1 p 0, natAt1 p 1, natAt1 p 2, natAt1 p 3, natAt1 p 4, natAt1 p 5, natAt1 p 6, natAt1 p 7, natAt1 p 8,
    natAt1 p 9, natAt1 p 10, natAt1 p 11, natAt1 p 12⟩

/-- The LIMITS record in 13 bytes (Table 9-5). -/
def Limits.encode (l : Limits) : List Byte :=
  [l.bqLow, l.bqHigh, l.cqLow, l.cqHigh, l.jqLow, l.jqHigh, l.caseWindow, l.jacketWindow, l.casingWait, l.pressWait,
    l.jacketWait, l.fitFail, l.stale].map natByte

/-- LIMITS (R49, R61, R102, R159): in CONFIG. -/
def writeLimits (p : List Byte) (s : State) : Written :=
  if !lengthOk p 1 1 13 then (.length, s)
  else if reqIndex p ≠ 0 ∨ !(Limits.read (p.drop 4)).inRange then (.range, s)
  else if s.rc.state ≠ .config then (.state, s)
  else (.ok, { s with limits := Limits.read (p.drop 4) })

/-- A node the line map may hold: 1..62, neither the own nor the former node number (R155). -/
def mappable (s : State) (n : Node) : Bool :=
  stationNode n && n != s.ring.ownNode && s.ring.formerNode != some n

/-- LINEMAP (R155): successive roles from the index on, in CONFIG. -/
def writeLinemap (p : List Byte) (s : State) : Written :=
  if !lengthOk p 1 9 1 then (.length, s)
  else if reqIndex p < 1 ∨ 9 < reqIndex p ∨ 9 < reqIndex p + reqCount p - 1 ∨ !((p.drop 4).all (mappable s)) then
    (.range, s)
  else if s.rc.state ≠ .config then (.state, s)
  else (.ok, { s with lineMap := s.lineMap.setFrom (reqIndex p - 1) (p.drop 4) })

/-- NODE (R152): the own node number, moved to the former one, in CONFIG with no proof run. -/
def writeNode (p : List Byte) (s : State) : Written :=
  if !lengthOk p 1 1 1 then (.length, s)
  else if reqIndex p ≠ 0 ∨ !stationNode (byteAt p 4) ∨ s.lineMap.list.any (fun n => n == byteAt p 4) then (.range, s)
  else if s.rc.state ≠ .config then (.state, s)
  else if s.ring.proofRun.isSome then (.busy, s)
  else (.ok, { s with ring := { s.ring with formerNode := some s.ring.ownNode, ownNode := byteAt p 4 } })

/-- PROTECT (R9): the level, with GUARD high at that moment. -/
def writeProtect (p : List Byte) (s : State) : Written :=
  if !lengthOk p 1 1 1 then (.length, s)
  else if reqIndex p ≠ 0 ∨ !protectInRange (byteAt p 4) then (.range, s)
  else if s.pins.guard = .low then (.isProtected, s)
  else (.ok, { s with titles := { s.titles with protect := protectLevel (byteAt p 4) } })

/-- COMPARATOR records written to successive comparators from `i`, each set OFF with tally 0; IRON_ALARM_OFF with
detail 256 plus the index for each that was ON, in order of addressing (R103). -/
def writeComparators : Nat → List ComparatorConfig → Ev → Ev
  | _, [], e => e
  | i, c :: cs, e =>
    let k := Fin.ofNat 4 i
    let was := (e.s.iron.comparators.get k).on
    let e := { e with s := { e.s with iron :=
      { e.s.iron with comparators := e.s.iron.comparators.set k (Comparator.off c) } } }
    writeComparators (i + 1) cs
      (if was then logAlert .ironAlarmOff Stage.press.code 0 0 (BitVec.ofNat 16 (256 + k.val)) e else e)

/-- COMPARATOR (R103): 1 to 4 configurations, in every run state. -/
def comparatorRecords (p : List Byte) : Status × List ComparatorConfig :=
  if !lengthOk p 1 4 7 then (.length, [])
  else match decodeAll ComparatorConfig.decode (recordsOf p 7) with
    | none => (.range, [])
    | some cs => if 3 < reqIndex p then (.range, []) else (.ok, cs)

/-- A WRITE whose effect is on the state alone: checked, written, answered. -/
def writeRegion (f : List Byte → State → Written) (tag : Byte) (p : List Byte) (e : Ev) : Ev :=
  let w := f p e.s
  respond tag w.1 p { e with s := w.2 }

/-- A WRITE to a region (R159, Table 10-1); the read-only regions are answered UNKNOWN. -/
def writeTo (r : Region) (tag : Byte) (p : List Byte) (e : Ev) : Ev :=
  match r with
  | .title => writeRegion writeTitle tag p e
  | .dose => writeRegion writeDose tag p e
  | .profile => writeRegion writeProfile tag p e
  | .calibration => writeRegion writeCalibration tag p e
  | .limits => writeRegion writeLimits tag p e
  | .linemap => writeRegion writeLinemap tag p e
  | .node => writeRegion writeNode tag p e
  | .protect => writeRegion writeProtect tag p e
  | .comparator =>
    let w := comparatorRecords p
    respond tag w.1 p (writeComparators (reqIndex p) w.2 e)
  | .status => respond tag .unknown p e
  | .totals => respond tag .unknown p e
  | .ident => respond tag .unknown p e
  | .queue => respond tag .unknown p e
  | .alerts => respond tag .unknown p e

/-- A taken WRITE (R159). -/
def write (tag : Byte) (p : List Byte) (e : Ev) : Ev :=
  if p.length < 4 then respond tag .length p e
  else match Region.ofCode (byteAt p 0) with
    | none => respond tag .unknown p e
    | some r => writeTo r tag p e

end Sys2Proof.Machine
end

