-- ==== Sys2Proof/Machine/Reads.lean ====
section
/-! DEFINITION. READ requests: each region's checks and records (10_management_requests_and_alerts.md, and the read rule
of each region). Only a READ of ALERTS changes state (R159, R167). -/

namespace Sys2Proof.Machine

/-- The outcome of a READ: the status, and when OK the count field and the record bytes of the REPLY. -/
structure ReadOut where
  status : Status
  count : Byte
  records : List Byte
  deriving DecidableEq, Repr

/-- A READ refused. -/
def ReadOut.refused (st : Status) : ReadOut := ⟨st, 0, []⟩

/-- A READ answered OK whose count field echoes the request. -/
def ReadOut.echoed (p : List Byte) (records : List Byte) : ReadOut := ⟨.ok, byteAt p 3, records⟩

/-- The checks shared by regions read by index and count: LEN 4 and count in `lo..hi` (LENGTH), then the index
(RANGE). -/
def readChecked (p : List Byte) (lo hi : Nat) (indexOk : Bool) (records : List Byte) : ReadOut :=
  if p.length ≠ 4 ∨ reqCount p < lo ∨ hi < reqCount p then .refused .length
  else if !indexOk then .refused .range
  else .echoed p records

/-- TITLE (R7): index 0..511 names bank A, 512..1023 bank B. -/
def readTitle (p : List Byte) (s : State) : ReadOut :=
  readChecked p 1 2 (decide (reqIndex p ≤ 1023))
    (((s.titles.bank (if reqIndex p < 512 then .a else .b)).getFrom (reqIndex p) (reqCount p)).flatMap
      TitleRecord.encode)

/-- DOSE (R31). -/
def readDose (p : List Byte) (s : State) : ReadOut :=
  readChecked p 1 4 (decide (reqIndex p ≤ 31))
    ((s.dose.recipes.getFrom (reqIndex p) (reqCount p)).flatMap Recipe.encode)

/-- PROFILE (R88). -/
def readProfile (p : List Byte) (s : State) : ReadOut :=
  readChecked p 1 4 (decide (reqIndex p ≤ 63))
    ((s.profiles.getFrom (reqIndex p) (reqCount p)).flatMap Profile.encode)

/-- CALIBRATION (R21): the record and the valid flag. -/
def readCalibration (p : List Byte) (s : State) : ReadOut :=
  readChecked p 1 1 (decide (reqIndex p = 0)) (s.ccu.record.encode ++ [flagByte s.ccu.valid])

/-- LIMITS (R61). -/
def readLimits (p : List Byte) (s : State) : ReadOut :=
  readChecked p 1 1 (decide (reqIndex p = 0)) s.limits.encode

/-- LINEMAP (R155): roles from the index on, without wrap. -/
def readLinemap (p : List Byte) (s : State) : ReadOut :=
  readChecked p 1 9 (decide (1 ≤ reqIndex p ∧ reqIndex p + reqCount p ≤ 10))
    ((s.lineMap.list.drop (reqIndex p - 1)).take (reqCount p))

/-- NODE (R152). -/
def readNode (p : List Byte) (s : State) : ReadOut :=
  readChecked p 1 1 (decide (reqIndex p = 0)) [s.ring.ownNode]

/-- COMPARATOR (R104). -/
def readComparators (p : List Byte) (s : State) : ReadOut :=
  readChecked p 1 4 (decide (reqIndex p ≤ 3))
    ((s.iron.comparators.getFrom (reqIndex p) (reqCount p)).flatMap Comparator.encode)

/-- PROTECT (R9). -/
def readProtect (p : List Byte) (s : State) : ReadOut :=
  readChecked p 1 1 (decide (reqIndex p = 0)) [natByte s.titles.protect.val]

/-- The flags byte of STATUS (Table 10-3). -/
def statusFlags (s : State) : Byte :=
  packBits [s.store.op != .idle, s.mu.overrun, s.ring.proofRun.isSome, s.iron.forward.sense == .stale,
    s.iron.rear.sense == .stale]

/-- The STATUS record (R161, Table 10-3). -/
def statusRecord (s : State) : List Byte :=
  [s.rc.state.code, natByte s.rc.causes.weight, s.ring.link.code] ++ nat2 s.ring.linkErrors
    ++ [natByte s.queues.bq.length, natByte s.queues.cq.length, natByte s.queues.jq.length,
      natByte s.queues.tq.length, natByte s.queues.pt.records.length, natByte s.queues.aq.length,
      natByte s.ring.outbound.length, natByte s.mu.log.length, s.titles.active.code, flagByte s.titles.armed]
    ++ bytes2 s.titles.lastMark ++ [s.ring.proofResult.code, statusFlags s]

/-- STATUS (R161). -/
def readStatus (p : List Byte) (s : State) : ReadOut :=
  readChecked p 1 1 (decide (reqIndex p = 0)) (statusRecord s)

/-- One column of totals in the order of Table 7-5. -/
def ItemTotals.list (c : ItemTotals) : List Nat :=
  [c.accepted, c.good, c.inspect, c.reject, c.lost, c.purged, c.untracked]

/-- The 21 totals as READ numbers them (R162). -/
def Totals.list (t : Totals) : List Nat := t.blocks.list ++ t.cases.list ++ t.jackets.list

/-- TOTALS (R162). -/
def readTotals (p : List Byte) (s : State) : ReadOut :=
  readChecked p 1 12 (decide (reqIndex p + reqCount p ≤ 21))
    (((s.totals.list.drop (reqIndex p)).take (reqCount p)).flatMap nat4)

/-- IDENT (R163). -/
def readIdent (p : List Byte) (s : State) : ReadOut :=
  readChecked p 1 1 (decide (reqIndex p = 0))
    (nat2 Config.deviceCode ++ [natByte Config.deviceRevision] ++ nat2 512 ++ [s.ring.ownNode])

/-! ### QUEUE records (Table 10-4) -/

/-- The slot and snapshot fields of a BQ record; an absent one is 0xFFFF and zeros (R47). -/
def foundBytes : Option Found → List Byte
  | some f => nat2 f.slot.val ++ f.data.encode
  | none => nat2 0xFFFF ++ TitleData.zero.encode

/-- A BQ record in 34 bytes. -/
def BlockEntry.encode (b : BlockEntry) : List Byte :=
  bytes4 b.serial ++ bytes3 b.key ++ foundBytes b.title ++ nat2 b.thickness
    ++ [packBits [b.title.isNone, b.offCaliper, b.clamped], natByte b.wait.absent, natByte b.wait.starved,
      (if b.wait.mark then 0x80 else 0) ||| natByte b.fitFail]

/-- The counts that end a CQ, JQ or book record. -/
def Waiting.encode (w : Waiting) : List Byte := [natByte w.absent, natByte w.starved, flagByte w.mark]

/-- A CQ record in 11 bytes. -/
def CaseEntry.encode (c : CaseEntry) : List Byte := bytes4 c.serial ++ bytes2 c.key ++ nat2 c.spine ++ c.wait.encode

/-- A JQ record in 9 bytes. -/
def JacketEntry.encode (j : JacketEntry) : List Byte := bytes4 j.serial ++ bytes2 j.key ++ j.wait.encode

/-- The profile field of a book record; 255 when absent (R93). -/
def profileByte : Option (Fin 64) → Byte
  | some i => natByte i.val
  | none => 255

/-- A book record in 16 bytes. -/
def BookRecord.encode (r : BookRecord) : List Byte :=
  bytes4 r.serial ++ bytes3 r.key ++ nat2 r.thickness ++ bytes2 r.jacketKey
    ++ [profileByte r.profile, packBits [r.flags.heatSuspect, r.flags.doseClamped, r.flags.untracked]]
    ++ r.wait.encode

/-- An empty press position as a record: zeros, with profile 255 and no flag (R93). -/
def emptyPosition : BookRecord := ⟨0, 0, 0, 0, none, ⟨false, false, false⟩, Waiting.fresh⟩

/-- The records of a collection as a QUEUE READ sees them, head or position 1 first (R47, R93). -/
def Queues.encoded (q : Queues) : Collection → List (List Byte)
  | .bq => q.bq.map BlockEntry.encode
  | .cq => q.cq.map CaseEntry.encode
  | .jq => q.jq.map JacketEntry.encode
  | .tq => q.tq.map BookRecord.encode
  | .pt => q.pt.positions.map fun p => (p.getD emptyPosition).encode
  | .aq => q.aq.map BookRecord.encode

/-- Capacity of a collection (Table 3-2). -/
def Collection.capacity : Collection → Nat
  | .bq => Config.bqCapacity
  | .cq => Config.cqCapacity
  | .jq => Config.jqCapacity
  | .tq => Config.tqCapacity
  | .pt => Config.ptPositions
  | .aq => Config.aqCapacity

/-- Most records in one reply (Table 10-4). -/
def Collection.perReply : Collection → Nat
  | .bq => 1
  | .cq => 4
  | .jq => 5
  | .tq => 3
  | .pt => 3
  | .aq => 3

/-- The first position named by a QUEUE READ: the low byte of its index (R164). -/
def queuePosition (p : List Byte) : Nat := natAt1 p 2

/-- QUEUE (R164): the collection is the high byte of the index. A count that no collection of Table 10-4 allows is
LENGTH even where the collection code is out of range (log 19). -/
def readQueue (p : List Byte) (s : State) : ReadOut :=
  if p.length ≠ 4 ∨ reqCount p < 1 ∨ 5 < reqCount p then .refused .length
  else match Collection.ofCode (natAt1 p 1) with
    | none => .refused .range
    | some c =>
      if c.perReply < reqCount p then .refused .length
      else if queuePosition p = 0 ∨ c.capacity < queuePosition p then .refused .range
      else
        let rs := ((s.queues.encoded c).drop (queuePosition p - 1)).take (reqCount p)
        ⟨.ok, natByte rs.length, rs.flatten⟩

/-! ### ALERTS -/

/-- An alert record in 15 bytes (R167). -/
def Alert.encode (a : Alert) : List Byte :=
  [a.code.code, a.stage] ++ bytes4 a.serial ++ bytes3 a.key ++ bytes4 a.stamp ++ bytes2 a.detail

/-- ALERTS (R167): up to 3 of the oldest records. -/
def readAlerts (p : List Byte) (s : State) : ReadOut :=
  if p.length ≠ 4 ∨ reqCount p < 1 ∨ 3 < reqCount p then .refused .length
  else if reqIndex p ≠ 0 then .refused .range
  else ⟨.ok, natByte (s.mu.log.take (reqCount p)).length, (s.mu.log.take (reqCount p)).flatMap Alert.encode⟩

/-- The log with its `n` oldest records removed; emptying it lowers ATTN and clears the overrun flag (R165, R166,
R167). -/
def Management.removed (mu : Management) (n : Nat) : Management :=
  if mu.log.drop n = [] then Management.reset else { mu with log := mu.log.drop n }

/-! ### Dispatch -/

/-- The outcome of a READ of a region (R159). -/
def readOf (r : Region) (p : List Byte) (s : State) : ReadOut :=
  match r with
  | .title => readTitle p s
  | .dose => readDose p s
  | .profile => readProfile p s
  | .calibration => readCalibration p s
  | .limits => readLimits p s
  | .linemap => readLinemap p s
  | .node => readNode p s
  | .comparator => readComparators p s
  | .protect => readProtect p s
  | .status => readStatus p s
  | .totals => readTotals p s
  | .ident => readIdent p s
  | .queue => readQueue p s
  | .alerts => readAlerts p s

/-- The REPLY to a READ (R160): its records and count when OK, the bare echo otherwise. -/
def readReply (s : State) (tag : Byte) (p : List Byte) (o : ReadOut) : Message :=
  ownMessage s .reply 0 tag
    (if o.status = .ok then [Status.ok.code, byteAt p 0] ++ bytes2 (wordAt p 1) ++ [o.count] ++ o.records
    else echo o.status p)

/-- The state after a READ: an accepted READ of ALERTS removes the records it returns (R167). -/
def afterRead (r : Region) (p : List Byte) (o : ReadOut) (s : State) : State :=
  if r = .alerts ∧ o.status = .ok then { s with mu := s.mu.removed (reqCount p) } else s

/-- A taken READ (R159, R160). -/
def read (tag : Byte) (p : List Byte) (e : Ev) : Ev :=
  if p.length < 4 then respond tag .length p e
  else match Region.ofCode (byteAt p 0) with
    | none => respond tag .unknown p e
    | some r =>
      let o := readOf r p e.s
      hand (readReply e.s tag p o) { e with s := afterRead r p o e.s }

end Sys2Proof.Machine
end

