-- ==== Sys2Proof/Machine/Wire.lean ====
section
/-! DEFINITION. Messages as they stand on the ring: header, payload and CRC, and the tests of a received message
(09_the_line_ring.md R145, R146, R147). -/

namespace Sys2Proof.Machine

/-- One bit of the CRC register: x^16 + x^12 + x^5 + 1, most significant bit first (R145). -/
def crcShift (r : BitVec 16) : BitVec 16 := if r.msb then (r <<< 1) ^^^ 0x1021 else r <<< 1

/-- One byte taken into the CRC register (R145). -/
def crcByte (r : BitVec 16) (b : Byte) : BitVec 16 :=
  crcShift (crcShift (crcShift (crcShift (crcShift (crcShift (crcShift (crcShift (r ^^^ (b ++ 0#8)))))))))

/-- The CRC of bytes: the register preset to 0xFFFF, the result not inverted (R145). -/
def crc (bs : List Byte) : BitVec 16 := bs.foldl crcByte 0xFFFF

/-- Header and payload, which the CRC is computed over (R145, Table 9-1). -/
def headed (m : Message) : List Byte := [m.dst, m.src, m.kind, m.tag, natByte m.payload.length] ++ m.payload

/-- A message as it travels: header, payload, CRC high byte first (R145). -/
def encode (m : Message) : List Byte := headed m ++ bytes2 (crc (headed m))

/-- The tests of R147 that do not concern the frame: DST at most 63, SRC at most 62, LEN at most 56. -/
def goodHeader (m : Message) : Bool :=
  decide (m.dst.toNat ≤ 63 ∧ m.src.toNat ≤ 62 ∧ m.payload.length ≤ 56)

/-- The message received in `bytes`, or none when it is bad: shorter than 7 bytes, LEN above 56, length other than
7 + LEN, CRC wrong, DST above 63 or SRC above 62 (R147). -/
def decode : List Byte → Option Message
  | dst :: src :: kind :: tag :: len :: rest =>
    if rest.length = len.toNat + 2 then
      let m : Message := ⟨dst, src, kind, tag, rest.take len.toNat⟩
      if goodHeader m ∧ wordAt rest len.toNat = crc (headed m) then some m else none
    else none
  | _ => none

end Sys2Proof.Machine
end

