-- ==== Sys2Proof/Machine/Ring.lean ====
section
/-! DEFINITION. The Ring Port: reception, link state, disposal of good messages, own messages that return, and the
downstream transmitter (09_the_line_ring.md). -/

namespace Sys2Proof.Machine

/-! ### Link -/

/-- The link error count raised by 1, saturating (R147, R153). -/
def RingPort.countError (r : RingPort) : RingPort := { r with linkErrors := satAdd Config.linkErrorTop r.linkErrors 1 }

/-- The state with its Ring Port replaced. -/
def setRing (r : RingPort) (e : Ev) : Ev := { e with s := { e.s with ring := r } }

/-- The link leaves UP for `l`: LINK_DOWN logged with the new state, LINK raised (R148). -/
def leaveUp (l : LinkState) (e : Ev) : Ev :=
  raiseCause .link (logAlert .linkDown 0 0 0 (l.code.setWidth 16) (setRing { e.s.ring with link := l } e))

/-- A good message while ACQUIRING brings the link UP, LINK_UP logged with the link error count (R148). -/
def comeUp (e : Ev) : Ev :=
  if e.s.ring.link = .acquiring then
    logAlert .linkUp 0 0 0 (BitVec.ofNat 16 e.s.ring.linkErrors) (setRing { e.s.ring with link := .up } e)
  else e

/-- A carrier is reported found: DOWN becomes ACQUIRING (R148). -/
def RingPort.found (r : RingPort) : RingPort := if r.link = .down then { r with link := .acquiring } else r

/-- A carrier is reported lost (R148). -/
def carrierGone (e : Ev) : Ev :=
  match e.s.ring.link with
  | .down => e
  | .acquiring => setRing { e.s.ring with link := .down } e
  | .up => leaveUp .down e

/-- A bad message: counted, and ending UP when the consecutive-bad count reaches 8 (R147, R148). -/
def badReceived (e : Ev) : Ev :=
  let r := e.s.ring.countError
  let n := satAdd Config.consecBadLimit r.consecBad 1
  let e := setRing { r with consecBad := n } e
  if e.s.ring.link = .up ∧ n = Config.consecBadLimit then leaveUp .acquiring e else e

/-! ### Forwarding -/

/-- A message joins the forward buffer unchanged, or at a full buffer is dropped and counted (R149, R153). -/
def forward (m : Message) (e : Ev) : Ev :=
  if e.s.ring.forward.length < Config.forwardCapacity then
    setRing { e.s.ring with forward := e.s.ring.forward ++ [m] } e
  else setRing e.s.ring.countError e

/-! ### Cycles and marks -/

/-- The machine of a CYCLE payload whose form is right (R55). -/
def cycleMachine (p : List Byte) : Option Merge :=
  if p.length = 4 then
    if natAt1 p 0 = 7 then some .casing
    else if natAt1 p 0 = 8 then some .press
    else if natAt1 p 0 = 9 then some .jacketer
    else none
  else none

/-- A CYCLE rejected (R55). -/
def cycleRejected (src : Node) (p : List Byte) (e : Ev) : Ev :=
  logAlert .roleMismatch (roleField p 7 9) 0 0 (src.setWidth 16) e

/-- A taken CYCLE, handled by the machine its role names (R56); the press's second flag is ignored. -/
def cycleTaken (m : Merge) (p : List Byte) (e : Ev) : Ev :=
  match m with
  | .casing => casingCycle (wordAt p 1) (bitSet (byteAt p 3) 0) (bitSet (byteAt p 3) 1) e
  | .press => pressIndex (wordAt p 1) (bitSet (byteAt p 3) 0) e
  | .jacketer => jacketCycle (wordAt p 1) (bitSet (byteAt p 3) 0) (bitSet (byteAt p 3) 1) e

/-- A CYCLE from `src` at the Tracking Engine: ignored in CONFIG, else form and source are checked (R55). -/
def cycle (src : Node) (p : List Byte) (e : Ev) : Ev :=
  if e.s.rc.state = .config then e
  else match cycleMachine p with
    | none => cycleRejected src p e
    | some m => if e.s.lineMap.matches m.role src then cycleTaken m p e else cycleRejected src p e

/-- A MARK of LEN 2 from node 0: the number recorded, the carries cleared, the banks swapped when armed (R13, R14,
R35); any other is not taken (R150). -/
def mark (src : Node) (p : List Byte) (e : Ev) : Ev :=
  if p.length = 2 ∧ src = 0 then
    let t := { e.s.titles with lastMark := wordAt p 0 }
    let e := { e with s := { e.s with dose := e.s.dose.clearCarries, titles := if t.armed then t.swap else t } }
    if t.armed then logAlert .bankSwapped 0 0 0 (wordAt p 0) e else e
  else e

/-! ### Disposal -/

/-- A request of node 0, or nothing for any other source (R129, R150). -/
def fromMaster (src : Node) (f : Ev → Ev) (e : Ev) : Ev := if src = 0 then f e else e

/-- A message taken by the part, handed on by kind (R150). -/
def take (m : Message) (e : Ev) : Ev :=
  match Kind.ofCode m.kind with
  | some .sight => sight m.src m.payload e
  | some .cycle => cycle m.src m.payload e
  | some .sense => sense m.src m.payload e
  | some .mark => mark m.src m.payload e
  | some .ctrl => fromMaster m.src (ctrl m.tag m.payload) e
  | some .write => fromMaster m.src (write m.tag m.payload) e
  | some .read => fromMaster m.src (read m.tag m.payload) e
  | some _ => e
  | none => fromMaster m.src (answer m.tag .unknown .none) e

/-- A broadcast of these kinds is taken as well as forwarded (R149). -/
def takenWhenBroadcast (m : Message) : Bool :=
  m.kind == Kind.sight.code || m.kind == Kind.cycle.code || m.kind == Kind.sense.code || m.kind == Kind.mark.code

/-- An own message that has come round the ring (R151). -/
def stripped (m : Message) (e : Ev) : Ev :=
  match Kind.ofCode m.kind with
  | some .feed => raiseCause .noTaker (logAlert .noTaker 0 0 0 (kindDst m) e)
  | some .casein => raiseCause .noTaker (logAlert .noTaker 0 0 0 (kindDst m) e)
  | some .press => raiseCause .noTaker (logAlert .noTaker 0 0 0 (kindDst m) e)
  | some .jacket => raiseCause .noTaker (logAlert .noTaker 0 0 0 (kindDst m) e)
  | some .proof => proofReturned m e
  | _ => e

/-- A good message disposed of by the first test of R149 that holds. -/
def dispose (m : Message) (e : Ev) : Ev :=
  if m.src = e.s.ring.ownNode ∨ some m.src = e.s.ring.formerNode then stripped m e
  else if m.dst = e.s.ring.ownNode then take m e
  else if m.dst = Config.broadcast ∧ takenWhenBroadcast m then take m (forward m e)
  else forward m e

/-- A good message: the consecutive-bad count becomes 0, the link responds, the message is disposed of (R147, R148,
R149). -/
def goodReceived (m : Message) (e : Ev) : Ev :=
  dispose m (comeUp (setRing { e.s.ring with consecBad := 0 } e))

/-- One event of the part, once the power-on load is over; until then nothing is received (R170). -/
def event (f : Ev → Ev) (s : State) : State := if s.phase = .running then finish (f (Ev.start s)) else s

/-- A message received whose CRC is right; its other tests are still made (R147). -/
def receive (m : Message) (s : State) : State :=
  event (if goodHeader m then goodReceived m else badReceived) s

/-- The bytes received up to an end delimiter, or up to a carrier loss or a second start delimiter that cuts the message
off (R145, R147). DESIGN CHOICE (log 29), unsafe: R145 says that a cut-off message is judged under R147 and fails the
length test, and does not say what holds when the bytes gathered are a whole well-formed message, which pass it; such
bytes are judged by R147 alone and taken as a good message. -/
def receiveBytes (bytes : List Byte) (s : State) : State :=
  event (match decode bytes with | some m => goodReceived m | none => badReceived) s

/-! ### Transmitter -/

/-- The transmitter finishes its message: the proof timer starts after an own PROOF 15 (R157), and the next message
is chosen as the event ends (R153). -/
def transmitted (e : Ev) : Ev :=
  match e.s.ring.tx with
  | .idle => e
  | .forwarding _ => setRing { e.s.ring with tx := .idle } e
  | .own m =>
    setRing { (if isProof15 m then e.s.ring.startTimer else e.s.ring) with tx := .idle } e

end Sys2Proof.Machine
end

