-- ==== Sys2Proof/Machine/RowsControl.lean ====
section
/-! DEFINITION. The meanings of the CTRL requests. -/

namespace Sys2Proof.Machine

/-- START: R130, R131. -/
def execStart (h : Envelope) (rest : List Byte) (s : State) : Host.Outcome State Fault Refusal :=
  .next (receive (h.message Kind.ctrl.code (Request.start.code :: rest)) s)

/-- HALT: R135. -/
def execHalt (h : Envelope) (rest : List Byte) (s : State) : Host.Outcome State Fault Refusal :=
  .next (receive (h.message Kind.ctrl.code (Request.halt.code :: rest)) s)

/-- RESUME: R136. -/
def execResume (h : Envelope) (rest : List Byte) (s : State) : Host.Outcome State Fault Refusal :=
  .next (receive (h.message Kind.ctrl.code (Request.resume.code :: rest)) s)

/-- DRAIN: R137. -/
def execDrain (h : Envelope) (rest : List Byte) (s : State) : Host.Outcome State Fault Refusal :=
  .next (receive (h.message Kind.ctrl.code (Request.drain.code :: rest)) s)

/-- ABORT: R139. -/
def execAbort (h : Envelope) (rest : List Byte) (s : State) : Host.Outcome State Fault Refusal :=
  .next (receive (h.message Kind.ctrl.code (Request.abort.code :: rest)) s)

/-- PURGE: R140. -/
def execPurge (h : Envelope) (rest : List Byte) (s : State) : Host.Outcome State Fault Refusal :=
  .next (receive (h.message Kind.ctrl.code (Request.purge.code :: rest)) s)

/-- CLEAR: R141. -/
def execClear (h : Envelope) (rest : List Byte) (s : State) : Host.Outcome State Fault Refusal :=
  .next (receive (h.message Kind.ctrl.code (Request.clear.code :: rest)) s)

/-- RESET: R142, R143. -/
def execReset (h : Envelope) (rest : List Byte) (s : State) : Host.Outcome State Fault Refusal :=
  .next (receive (h.message Kind.ctrl.code (Request.reset.code :: rest)) s)

/-- ARM: R10. -/
def execArm (h : Envelope) (rest : List Byte) (s : State) : Host.Outcome State Fault Refusal :=
  .next (receive (h.message Kind.ctrl.code (Request.arm.code :: rest)) s)

/-- DISARM: R11. -/
def execDisarm (h : Envelope) (rest : List Byte) (s : State) : Host.Outcome State Fault Refusal :=
  .next (receive (h.message Kind.ctrl.code (Request.disarm.code :: rest)) s)

/-- COPY: R12. -/
def execCopy (h : Envelope) (rest : List Byte) (s : State) : Host.Outcome State Fault Refusal :=
  .next (receive (h.message Kind.ctrl.code (Request.copy.code :: rest)) s)

/-- STORE: R172. -/
def execStore (h : Envelope) (rest : List Byte) (s : State) : Host.Outcome State Fault Refusal :=
  .next (receive (h.message Kind.ctrl.code (Request.store.code :: rest)) s)

/-- PROOF: R156. -/
def execProof (h : Envelope) (rest : List Byte) (s : State) : Host.Outcome State Fault Refusal :=
  .next (receive (h.message Kind.ctrl.code (Request.proof.code :: rest)) s)

end Sys2Proof.Machine
end

