-- ==== Sys2Proof/Machine/RowsLine.lean ====
section
/-! DEFINITION. The meanings of the commands of the line: sightings, cycles, readings and marks. Each is the arrival of one
message; a row that names what comes about inside a cycle or a reading carries the message that brings it about
(log 5). -/

namespace Sys2Proof.Machine

/-- BLOCK_SIGHT: R37 to R44. -/
def execBlockSight (h : Envelope) (payload : List Byte) (s : State) : Host.Outcome State Fault Refusal :=
  .next (receive (h.message Kind.sight.code payload) s)

/-- CASE_SIGHT: R37 to R42, R45. -/
def execCaseSight (h : Envelope) (payload : List Byte) (s : State) : Host.Outcome State Fault Refusal :=
  .next (receive (h.message Kind.sight.code payload) s)

/-- JACKET_SIGHT: R37 to R42, R46. -/
def execJacketSight (h : Envelope) (payload : List Byte) (s : State) : Host.Outcome State Fault Refusal :=
  .next (receive (h.message Kind.sight.code payload) s)

/-- CASING_CYCLE: R55, R66. -/
def execCasingCycle (h : Envelope) (payload : List Byte) (s : State) : Host.Outcome State Fault Refusal :=
  .next (receive (h.message Kind.cycle.code payload) s)

/-- ITEM_LOST: the cycle at which a head is closed as LOST (R64, log 5). -/
def execItemLost (h : Envelope) (payload : List Byte) (s : State) : Host.Outcome State Fault Refusal :=
  .next (receive (h.message Kind.cycle.code payload) s)

/-- STARVED: the cycle at which a head is announced starved (R65, log 5). -/
def execStarved (h : Envelope) (payload : List Byte) (s : State) : Host.Outcome State Fault Refusal :=
  .next (receive (h.message Kind.cycle.code payload) s)

/-- FIT_FAIL_LIMIT: the casing cycle at which a block reaches its fit-fail limit (R69, log 5). -/
def execFitFailLimit (h : Envelope) (payload : List Byte) (s : State) : Host.Outcome State Fault Refusal :=
  .next (receive (h.message Kind.cycle.code payload) s)

/-- PRESS_INDEX: R55, R81. -/
def execPressIndex (h : Envelope) (payload : List Byte) (s : State) : Host.Outcome State Fault Refusal :=
  .next (receive (h.message Kind.cycle.code payload) s)

/-- SENSE_STALE: the press index at which a bank becomes STALE (R101, log 5). -/
def execSenseStale (h : Envelope) (payload : List Byte) (s : State) : Host.Outcome State Fault Refusal :=
  .next (receive (h.message Kind.cycle.code payload) s)

/-- JACKET_CYCLE: R55, R107. -/
def execJacketCycle (h : Envelope) (payload : List Byte) (s : State) : Host.Outcome State Fault Refusal :=
  .next (receive (h.message Kind.cycle.code payload) s)

/-- DRAIN_COMPLETE: the message whose event completes a drain (R138, log 5). -/
def execDrainComplete (m : Message) (s : State) : Host.Outcome State Fault Refusal :=
  .next (receive m s)

/-- SENSE: R96 to R99. -/
def execSense (h : Envelope) (payload : List Byte) (s : State) : Host.Outcome State Fault Refusal :=
  .next (receive (h.message Kind.sense.code payload) s)

/-- IRON_ALARM_ON: the SENSE that turns a comparator ON (R97, log 5). -/
def execIronAlarmOn (h : Envelope) (payload : List Byte) (s : State) : Host.Outcome State Fault Refusal :=
  .next (receive (h.message Kind.sense.code payload) s)

/-- IRON_ALARM_OFF: the SENSE that turns a comparator OFF (R98, log 5). -/
def execIronAlarmOff (h : Envelope) (payload : List Byte) (s : State) : Host.Outcome State Fault Refusal :=
  .next (receive (h.message Kind.sense.code payload) s)

/-- MARK: R13, R14, R35. -/
def execMark (h : Envelope) (payload : List Byte) (s : State) : Host.Outcome State Fault Refusal :=
  .next (receive (h.message Kind.mark.code payload) s)

end Sys2Proof.Machine
end

