-- ==== Sys2Proof/Machine/RowsManage.lean ====
section
/-! DEFINITION. The meanings of the management requests. -/

namespace Sys2Proof.Machine

/-- TITLE_WRITE: R2, R5, R6, R8. -/
def execTitleWrite (h : Envelope) (rest : List Byte) (s : State) : Host.Outcome State Fault Refusal :=
  .next (receive (h.message Kind.write.code (Region.title.code :: rest)) s)

/-- CALIBRATION_WRITE: R20. -/
def execCalibrationWrite (h : Envelope) (rest : List Byte) (s : State) : Host.Outcome State Fault Refusal :=
  .next (receive (h.message Kind.write.code (Region.calibration.code :: rest)) s)

/-- DOSE_WRITE: R30. -/
def execDoseWrite (h : Envelope) (rest : List Byte) (s : State) : Host.Outcome State Fault Refusal :=
  .next (receive (h.message Kind.write.code (Region.dose.code :: rest)) s)

/-- PROFILE_WRITE: R88. -/
def execProfileWrite (h : Envelope) (rest : List Byte) (s : State) : Host.Outcome State Fault Refusal :=
  .next (receive (h.message Kind.write.code (Region.profile.code :: rest)) s)

/-- LIMITS_WRITE: R49, R61, R102. -/
def execLimitsWrite (h : Envelope) (rest : List Byte) (s : State) : Host.Outcome State Fault Refusal :=
  .next (receive (h.message Kind.write.code (Region.limits.code :: rest)) s)

/-- LINEMAP_WRITE: R155. -/
def execLinemapWrite (h : Envelope) (rest : List Byte) (s : State) : Host.Outcome State Fault Refusal :=
  .next (receive (h.message Kind.write.code (Region.linemap.code :: rest)) s)

/-- NODE_WRITE: R152. -/
def execNodeWrite (h : Envelope) (rest : List Byte) (s : State) : Host.Outcome State Fault Refusal :=
  .next (receive (h.message Kind.write.code (Region.node.code :: rest)) s)

/-- COMPARATOR_WRITE: R103. -/
def execComparatorWrite (h : Envelope) (rest : List Byte) (s : State) : Host.Outcome State Fault Refusal :=
  .next (receive (h.message Kind.write.code (Region.comparator.code :: rest)) s)

/-- PROTECT_WRITE: R9, GUARD standing at `guard` at that moment (log 13). -/
def execProtectWrite (h : Envelope) (guard : Level) (rest : List Byte) (s : State) : Host.Outcome State Fault Refusal :=
  .next (receive (h.message Kind.write.code (Region.protect.code :: rest)) { s with pins := { s.pins with guard := guard } })

/-- WRITE_UNKNOWN_REGION: R159. -/
def execWriteUnknownRegion (h : Envelope) (payload : List Byte) (s : State) : Host.Outcome State Fault Refusal :=
  .next (receive (h.message Kind.write.code payload) s)

/-- ALERTS_READ: R167, and the READ of any other region (R159, log 6). -/
def execAlertsRead (h : Envelope) (payload : List Byte) (s : State) : Host.Outcome State Fault Refusal :=
  .next (receive (h.message Kind.read.code payload) s)

end Sys2Proof.Machine
end

