-- ==== Sys2Proof/Machine/RowsPower.lean ====
section
/-! DEFINITION. The meanings of the power and store commands. -/

namespace Sys2Proof.Machine

/-- POWER_ON_RESET: R144 and the power-on values of every chapter; a STORE in flight is cut off after `written`
groups (R174). -/
def execPowerOnReset (written : Nat) (s : State) : Host.Outcome State Fault Refusal :=
  .next (powerOnReset written s)

/-- POWER_ON_LOAD: RESET_N rises, the store is read and judged (R170, R171). -/
def execPowerOnLoad (cells : CellReport) (s : State) : Host.Outcome State Fault Refusal :=
  .next (powerOnLoad cells s)

/-- LOAD_COMPLETE: the load ends, the Ring Port begins to receive, and a carrier already present is reported found
(R148, R170); outside a load there is none to end (log 4). -/
def loadComplete (s : State) : State :=
  if s.phase = .loading then
    finish (Ev.start { s with phase := .running, ring := if s.pins.carrier then s.ring.found else s.ring })
  else s

/-- LOAD_COMPLETE (R170). -/
def execLoadComplete (s : State) : Host.Outcome State Fault Refusal :=
  .next (loadComplete s)

/-- STORE_DONE: the store in flight ends (R173). -/
def execStoreDone (s : State) : Host.Outcome State Fault Refusal :=
  .next (event storeDone s)

end Sys2Proof.Machine
end

