-- ==== Sys2Proof/Machine/RowsRing.lean ====
section
/-! DEFINITION. The meanings of the commands of the ring and the link. -/

namespace Sys2Proof.Machine

/-- Line symbols appear on RING_IN: seen by the Ring Port once the load is over (R148, R170). -/
def carrierFound (s : State) : State :=
  event (fun e => setRing e.s.ring.found e) { s with pins := { s.pins with carrier := true } }

/-- Line symbols cease on RING_IN (R148). -/
def carrierLost (s : State) : State := event carrierGone { s with pins := { s.pins with carrier := false } }

/-- CARRIER_FOUND (R148). -/
def execCarrierFound (s : State) : Host.Outcome State Fault Refusal :=
  .next (carrierFound s)

/-- CARRIER_LOST (R148). -/
def execCarrierLost (s : State) : Host.Outcome State Fault Refusal :=
  .next (carrierLost s)

/-- BAD_MESSAGE: the bytes are judged under R147. -/
def execBadMessage (bytes : List Byte) (s : State) : Host.Outcome State Fault Refusal :=
  .next (receiveBytes bytes s)

/-- CONSECUTIVE_BAD_LIMIT: the bad message whose arrival brings the consecutive-bad count to 8 (R148, log 5). -/
def execConsecutiveBadLimit (bytes : List Byte) (s : State) : Host.Outcome State Fault Refusal :=
  .next (receiveBytes bytes s)

/-- FORWARD_MESSAGE: a good message disposed of under R149. -/
def execForwardMessage (m : Message) (s : State) : Host.Outcome State Fault Refusal :=
  .next (receive m s)

/-- STRIPPED_ORDER: an own order has come round the ring (R151). -/
def execStrippedOrder (m : Message) (s : State) : Host.Outcome State Fault Refusal :=
  .next (receive m s)

/-- PROOF_RETURN: a PROOF message has come round the ring (R157). -/
def execProofReturn (h : Envelope) (payload : List Byte) (s : State) : Host.Outcome State Fault Refusal :=
  .next (receive (h.message Kind.proof.code payload) s)

/-- PROOF_TIMEOUT: 50 ms after the proof timer started (R157). -/
def execProofTimeout (s : State) : Host.Outcome State Fault Refusal :=
  .next (event proofExpired s)

/-- TRANSMIT_COMPLETE: the transmitter finishes a message and chooses the next (R153). -/
def execTransmitComplete (s : State) : Host.Outcome State Fault Refusal :=
  .next (event transmitted s)

/-- UNKNOWN_KIND: a message whose kind no other row carries (R150). -/
def execUnknownKind (m : Message) (s : State) : Host.Outcome State Fault Refusal :=
  .next (receive m s)

end Sys2Proof.Machine
end

