-- ==== Sys2Proof/Machine/Dispatch.lean ====
section
/-! DEFINITION. The dispatch: one arm for each command, a direct call of its meaning. -/

namespace Sys2Proof.Machine

/-- The effect of a command on everything but the queue of waiting commands. -/
def exec (i : Instr) (s : State) : Host.Outcome State Fault Refusal :=
  match i with
  | .powerOnReset written => Sys2Proof.Machine.execPowerOnReset written s
  | .powerOnLoad cells => Sys2Proof.Machine.execPowerOnLoad cells s
  | .loadComplete => Sys2Proof.Machine.execLoadComplete s
  | .carrierFound => Sys2Proof.Machine.execCarrierFound s
  | .carrierLost => Sys2Proof.Machine.execCarrierLost s
  | .badMessage bytes => Sys2Proof.Machine.execBadMessage bytes s
  | .consecutiveBadLimit bytes => Sys2Proof.Machine.execConsecutiveBadLimit bytes s
  | .forwardMessage m => Sys2Proof.Machine.execForwardMessage m s
  | .blockSight h payload => Sys2Proof.Machine.execBlockSight h payload s
  | .caseSight h payload => Sys2Proof.Machine.execCaseSight h payload s
  | .jacketSight h payload => Sys2Proof.Machine.execJacketSight h payload s
  | .casingCycle h payload => Sys2Proof.Machine.execCasingCycle h payload s
  | .itemLost h payload => Sys2Proof.Machine.execItemLost h payload s
  | .starved h payload => Sys2Proof.Machine.execStarved h payload s
  | .fitFailLimit h payload => Sys2Proof.Machine.execFitFailLimit h payload s
  | .pressIndex h payload => Sys2Proof.Machine.execPressIndex h payload s
  | .senseStale h payload => Sys2Proof.Machine.execSenseStale h payload s
  | .jacketCycle h payload => Sys2Proof.Machine.execJacketCycle h payload s
  | .drainComplete m => Sys2Proof.Machine.execDrainComplete m s
  | .sense h payload => Sys2Proof.Machine.execSense h payload s
  | .ironAlarmOn h payload => Sys2Proof.Machine.execIronAlarmOn h payload s
  | .ironAlarmOff h payload => Sys2Proof.Machine.execIronAlarmOff h payload s
  | .mark h payload => Sys2Proof.Machine.execMark h payload s
  | .start h rest => Sys2Proof.Machine.execStart h rest s
  | .halt h rest => Sys2Proof.Machine.execHalt h rest s
  | .resume h rest => Sys2Proof.Machine.execResume h rest s
  | .drain h rest => Sys2Proof.Machine.execDrain h rest s
  | .abort h rest => Sys2Proof.Machine.execAbort h rest s
  | .purge h rest => Sys2Proof.Machine.execPurge h rest s
  | .clear h rest => Sys2Proof.Machine.execClear h rest s
  | .reset h rest => Sys2Proof.Machine.execReset h rest s
  | .arm h rest => Sys2Proof.Machine.execArm h rest s
  | .disarm h rest => Sys2Proof.Machine.execDisarm h rest s
  | .copy h rest => Sys2Proof.Machine.execCopy h rest s
  | .store h rest => Sys2Proof.Machine.execStore h rest s
  | .storeDone => Sys2Proof.Machine.execStoreDone s
  | .proof h rest => Sys2Proof.Machine.execProof h rest s
  | .proofReturn h payload => Sys2Proof.Machine.execProofReturn h payload s
  | .proofTimeout => Sys2Proof.Machine.execProofTimeout s
  | .strippedOrder m => Sys2Proof.Machine.execStrippedOrder m s
  | .transmitComplete => Sys2Proof.Machine.execTransmitComplete s
  | .unknownKind m => Sys2Proof.Machine.execUnknownKind m s
  | .titleWrite h rest => Sys2Proof.Machine.execTitleWrite h rest s
  | .protectWrite h guard rest => Sys2Proof.Machine.execProtectWrite h guard rest s
  | .calibrationWrite h rest => Sys2Proof.Machine.execCalibrationWrite h rest s
  | .doseWrite h rest => Sys2Proof.Machine.execDoseWrite h rest s
  | .profileWrite h rest => Sys2Proof.Machine.execProfileWrite h rest s
  | .limitsWrite h rest => Sys2Proof.Machine.execLimitsWrite h rest s
  | .linemapWrite h rest => Sys2Proof.Machine.execLinemapWrite h rest s
  | .nodeWrite h rest => Sys2Proof.Machine.execNodeWrite h rest s
  | .comparatorWrite h rest => Sys2Proof.Machine.execComparatorWrite h rest s
  | .writeUnknownRegion h payload => Sys2Proof.Machine.execWriteUnknownRegion h payload s
  | .alertsRead h payload => Sys2Proof.Machine.execAlertsRead h payload s

end Sys2Proof.Machine
end

