-- ==== Sys2Proof/Safety.lean ====
section
/-! DEFINITION. The terms the statements use: safe commands, the messages a command carries, what a received
message finds, what handing messages over may change, and the invariants of the state. Each is written from the spec
beside the operations of Machine/, not from them. -/

namespace Sys2Proof.Machine

/-- A command is safe in a state when it neither faults nor is refused. -/
def safeAt (i : Instr) (s : State) : Prop := ∃ t, exec i s = .next t

/-! ### The message of a command -/

/-- The good message whose arrival a command is; none for a bad message, a pin, a timer or the transmitter. -/
def carried : Instr → Option Message
  | .powerOnReset _ => none
  | .powerOnLoad _ => none
  | .loadComplete => none
  | .carrierFound => none
  | .carrierLost => none
  | .badMessage bytes => decode bytes
  | .consecutiveBadLimit bytes => decode bytes
  | .forwardMessage m => some m
  | .blockSight h p => some (h.message Kind.sight.code p)
  | .caseSight h p => some (h.message Kind.sight.code p)
  | .jacketSight h p => some (h.message Kind.sight.code p)
  | .casingCycle h p => some (h.message Kind.cycle.code p)
  | .itemLost h p => some (h.message Kind.cycle.code p)
  | .starved h p => some (h.message Kind.cycle.code p)
  | .fitFailLimit h p => some (h.message Kind.cycle.code p)
  | .pressIndex h p => some (h.message Kind.cycle.code p)
  | .senseStale h p => some (h.message Kind.cycle.code p)
  | .jacketCycle h p => some (h.message Kind.cycle.code p)
  | .drainComplete m => some m
  | .sense h p => some (h.message Kind.sense.code p)
  | .ironAlarmOn h p => some (h.message Kind.sense.code p)
  | .ironAlarmOff h p => some (h.message Kind.sense.code p)
  | .mark h p => some (h.message Kind.mark.code p)
  | .start h r => some (h.message Kind.ctrl.code (Request.start.code :: r))
  | .halt h r => some (h.message Kind.ctrl.code (Request.halt.code :: r))
  | .resume h r => some (h.message Kind.ctrl.code (Request.resume.code :: r))
  | .drain h r => some (h.message Kind.ctrl.code (Request.drain.code :: r))
  | .abort h r => some (h.message Kind.ctrl.code (Request.abort.code :: r))
  | .purge h r => some (h.message Kind.ctrl.code (Request.purge.code :: r))
  | .clear h r => some (h.message Kind.ctrl.code (Request.clear.code :: r))
  | .reset h r => some (h.message Kind.ctrl.code (Request.reset.code :: r))
  | .arm h r => some (h.message Kind.ctrl.code (Request.arm.code :: r))
  | .disarm h r => some (h.message Kind.ctrl.code (Request.disarm.code :: r))
  | .copy h r => some (h.message Kind.ctrl.code (Request.copy.code :: r))
  | .store h r => some (h.message Kind.ctrl.code (Request.store.code :: r))
  | .storeDone => none
  | .proof h r => some (h.message Kind.ctrl.code (Request.proof.code :: r))
  | .proofReturn h p => some (h.message Kind.proof.code p)
  | .proofTimeout => none
  | .strippedOrder m => some m
  | .transmitComplete => none
  | .unknownKind m => some m
  | .titleWrite h r => some (h.message Kind.write.code (Region.title.code :: r))
  | .protectWrite h _ r => some (h.message Kind.write.code (Region.protect.code :: r))
  | .calibrationWrite h r => some (h.message Kind.write.code (Region.calibration.code :: r))
  | .doseWrite h r => some (h.message Kind.write.code (Region.dose.code :: r))
  | .profileWrite h r => some (h.message Kind.write.code (Region.profile.code :: r))
  | .limitsWrite h r => some (h.message Kind.write.code (Region.limits.code :: r))
  | .linemapWrite h r => some (h.message Kind.write.code (Region.linemap.code :: r))
  | .nodeWrite h r => some (h.message Kind.write.code (Region.node.code :: r))
  | .comparatorWrite h r => some (h.message Kind.write.code (Region.comparator.code :: r))
  | .writeUnknownRegion h p => some (h.message Kind.write.code p)
  | .alertsRead h p => some (h.message Kind.read.code p)

/-- The pin level a command carries: GUARD at the moment of a PROTECT write (R9, log 13). -/
def State.withPinsOf (c : Instr) (s : State) : State :=
  match c with
  | .protectWrite _ g _ => { s with pins := { s.pins with guard := g } }
  | _ => s

/-! ### Reception -/

/-- The Ring Port receives `m`, a good message (R147) that is not one of the part's own (R149), with the power-on
load over (R170). -/
def State.hears (s : State) (m : Message) : Prop :=
  s.phase = .running ∧ m.dst.toNat ≤ 63 ∧ m.src.toNat ≤ 62 ∧ m.payload.length ≤ 56
    ∧ m.src ≠ s.ring.ownNode ∧ some m.src ≠ s.ring.formerNode

/-- A SIGHT, CYCLE, SENSE or MARK that the Ring Port takes for the part: addressed to it or broadcast (R149). -/
def State.takes (s : State) (m : Message) : Prop :=
  s.hears m ∧ (m.dst = s.ring.ownNode ∨ m.dst = 63)

/-- A request of node 0 addressed to the part reaches it under header `h` (R149, R150); its payload is not too long
for a message as long as the request's own form check passes. -/
def State.obeys (s : State) (h : Envelope) : Prop :=
  s.phase = .running ∧ h.dst = s.ring.ownNode ∧ h.dst.toNat ≤ 63 ∧ h.src = 0 ∧ s.ring.ownNode ≠ 0
    ∧ s.ring.formerNode ≠ some 0

/-- A record logged with the casing cycle stamp as it stands (R60, R165). -/
def State.logging (code : AlertCode) (stage : Byte) (serial : Serial) (key : TitleKey) (detail : Word) (s : State) :
    State :=
  { s with mu := s.mu.logged ⟨code, stage, serial, key, s.cycles.stamp, detail⟩ }

/-- What a good message finds before it is disposed of: the consecutive-bad count 0 (R147), and the link UP with
LINK_UP logged where it was ACQUIRING (R148). -/
def State.arrived (s : State) : State :=
  if s.ring.link = .acquiring then
    ({ s with ring := { s.ring with link := .up, consecBad := 0 } }).logging .linkUp 0 0 0
      (BitVec.ofNat 16 s.ring.linkErrors)
  else { s with ring := { s.ring with consecBad := 0 } }

/-- The forward buffer after a message to be forwarded: joined, or full and the message dropped and counted (R153). -/
def RingPort.passingOn (m : Message) (r : RingPort) : RingPort :=
  if r.forward.length < 2 then { r with forward := r.forward ++ [m] }
  else { r with linkErrors := min 65535 (r.linkErrors + 1) }

/-- What a taken message finds: `arrived`, and a broadcast one handed to the forward buffer as well (R149), before the part
acts on it (log 12). -/
def State.heard (s : State) (m : Message) : State :=
  if m.dst = s.ring.ownNode then s.arrived else { s.arrived with ring := s.arrived.ring.passingOn m }

/-- The line map names `src` for role `r`, and the role is assigned (R39, R55, R96, R155). -/
def State.plays (s : State) (src : Node) (r : Nat) : Prop := s.lineMap.role r = src ∧ src ≠ 0

/-! ### Messages handed over -/

/-- `s` with messages added to the tail of its outbound queue and an idle transmitter begun (R153, R154), which is at the
end of the event (log 9). -/
def State.sending (s : State) (ms : List Message) : State :=
  { s with ring := RingPort.choose { s.ring with outbound := s.ring.outbound ++ ms } }

/-- `t` is `u` but for what handing messages over may change: the transmitter with its two queues, and, where a
message is dropped, the alert log, Run Control, the feeders' last levels and the proof timer (R154, R157). -/
def State.sameButSending (u t : State) : Prop :=
  t = { u with
    ring :=
      { u.ring with
        outbound := t.ring.outbound, forward := t.ring.forward, tx := t.ring.tx, proofRun := t.ring.proofRun }
    mu := t.mu
    rc := t.rc
    feed := t.feed }

/-- `t` is what handing the messages `ms` over makes of `u`: with room for all of them they join the outbound queue
in that order and nothing else changes; in any case the event keeps every other effect (R59, R75, R154). -/
def State.handsOver (u : State) (ms : List Message) (t : State) : Prop :=
  u.sameButSending t ∧ (u.ring.outbound.length + ms.length ≤ 32 → t = u.sending ms)

/-- The ALERT message of an event that finds the log as in `s` and leaves it as in `t` (R166). -/
def State.alertFor (s t : State) : List Message :=
  if s.mu.log = [] ∧ t.mu.log ≠ [] then [ownMessage t .alert 0 0 [1]] else []

/-- The FEED order of a feeder, unless its role is unassigned (R52). -/
def State.feedOrder (s : State) (f : Feeder) (v : FeedLevel) : List Message :=
  if s.lineMap.role f.role = 0 then [] else [ownMessage s .feed (s.lineMap.role f.role) 0 [v.code]]

/-- FEED PAUSE to the block, case and jacket feeders, in that order (R51, R52). -/
def State.pauseOrders (s : State) : List Message :=
  s.feedOrder .block .pause ++ s.feedOrder .caseFeeder .pause ++ s.feedOrder .jacket .pause

/-- The FEED order of a computation after an occupancy change: only when the level differs from the last sent (R51). -/
def State.levelOrder (s : State) (f : Feeder) : List Message :=
  if computedLevel s f = s.feed.of f then [] else s.feedOrder f (computedLevel s f)

/-- `s` with a feeder's last level sent set to its computed level (R50, R51). -/
def State.levelled (f : Feeder) (s : State) : State := { s with feed := s.feed.set (computedLevel s f) f }

/-- The level of a queue of `n` entries with low mark `l` and high mark `m` in RUN (R50). -/
def levelAt (n l m : Nat) : FeedLevel := if n < l then .high else if n < m then .normal else .pause

/-- The computed levels of the three feeders in RUN (R50). -/
def State.runLevels (s : State) : FeedLevels :=
  ⟨levelAt s.queues.bq.length s.limits.bqLow s.limits.bqHigh, levelAt s.queues.cq.length s.limits.cqLow s.limits.cqHigh,
    levelAt s.queues.jq.length s.limits.jqLow s.limits.jqHigh⟩

/-- An entry into RUN: no cause, STOP_N released, the computed levels the last levels sent (R51, R127, R134). -/
def State.enteringRun (s : State) : State :=
  { s with rc := ⟨.run, CauseSet.empty, .released⟩, feed := s.runLevels }

/-- FEED with its last level sent to the block, case and jacket feeders, in that order (R51, R52). -/
def State.lastOrders (s : State) : List Message :=
  s.feedOrder .block s.feed.block ++ s.feedOrder .caseFeeder s.feed.cases ++ s.feedOrder .jacket s.feed.jacket

/-- `s` relevelled for feeder `f` when its queue's occupancy differs from that in `before` (R50). -/
def State.levelledFrom (before : Queues) (f : Feeder) (s : State) : State :=
  if s.queues.fedBy f = before.fedBy f then s else s.levelled f

/-- The FEED order of that computation (R51). -/
def State.orderFrom (before : Queues) (f : Feeder) (s : State) : List Message :=
  if s.queues.fedBy f = before.fedBy f then [] else s.levelOrder f

/-- The end of an event that found the queues as `before`: one computation for each queue it changed (R50). -/
def State.relevelled (before : Queues) (s : State) : State :=
  ((s.levelledFrom before .block).levelledFrom before .caseFeeder).levelledFrom before .jacket

/-- The FEED orders of those computations: block, case, jacket (R51, R52). -/
def State.relevelOrders (before : Queues) (s : State) : List Message :=
  s.orderFrom before .block ++ s.orderFrom before .caseFeeder ++ s.orderFrom before .jacket

/-! ### Halt causes -/

/-- The weight of a cause (Table 8-5). -/
def Cause.weight : Cause → Word
  | .master => 1
  | .overflow => 2
  | .tracking => 4
  | .outboundFull => 8
  | .noTaker => 16
  | .link => 32

/-- What raising a cause makes of a state (R132, R133). -/
def State.caused (c : Cause) (s : State) : State :=
  match s.rc.state with
  | .config => s
  | .run =>
    ({ s with rc := ⟨.halt, CauseSet.empty.add c, .low⟩, feed := FeedLevels.paused }).logging .halted 0 0 0 c.weight
  | .drain => ({ s with rc := ⟨.halt, CauseSet.empty.add c, .low⟩ }).logging .halted 0 0 0 c.weight
  | .halt => { s with rc := { s.rc with causes := s.rc.causes.add c } }

/-- The FEED orders that raising a cause forms: PAUSE to all three feeders at an exit from RUN (R51, R132). -/
def State.causeOrders (s : State) : List Message := if s.rc.state = .run then s.pauseOrders else []

/-! ### The settings store -/

/-- A group the load takes: marker set, no uncorrectable word, every value in range (R170). -/
def StoreGroup.usable {α : Type} (g : StoreGroup α) (inRange : α → Bool) : Prop :=
  g.marker = true ∧ g.health ≠ .uncorrectable ∧ inRange g.content = true

/-- The records the load logs for group `number`: STORE_FIXED for a usable group with corrected words, STORE_BAD for
a group that is not usable, none for a clean one (R170). -/
def StoreGroup.records {α : Type} (g : StoreGroup α) (inRange : α → Bool) (number : Word) (stamp : BitVec 32) : List Alert :=
  if g.marker = true ∧ g.health ≠ .uncorrectable ∧ inRange g.content = true then
    if g.health = .corrected then [⟨.storeFixed, 0, 0, 0, stamp, number⟩] else []
  else [⟨.storeBad, 0, 0, 0, stamp, number⟩]

/-! ### What a command comes to -/

/-- Command `c` answers a next state: with effects `u`, handing over `ms` and then the ALERT it owes (R166). -/
def State.completes (s : State) (c : Instr) (u : State) (ms : List Message) : Prop :=
  ∃ t, exec c s = .next t ∧ u.handsOver (ms ++ s.alertFor u) t

/-- Request `c` is only answered: no effect but the arrival of its message and the REPLY (R129). -/
def State.onlyAnswers (s : State) (c : Instr) (tag : Byte) (st : Status) (r : Reason) : Prop :=
  s.completes c s.arrived [ctrlReply s.arrived tag st r]

/-! ### A full outbound queue -/

/-- `s` with the messages `ms` dropped in order at a full outbound queue: each logs OUTBOUND_FULL and raises it (R154).
No PROOF message is among them. -/
def State.dropping (ms : List Message) (s : State) : State :=
  ms.foldl (fun x m =>
    (x.logging .outboundFull 0 0 0 (BitVec.ofNat 16 (256 * m.kind.toNat + m.dst.toNat))).caused .outboundFull) s

/-- The end of an event that finds the outbound queue full, with effects `u`, its messages, and its FEED orders: all
are dropped, then the FEED PAUSE orders of the halt that the first drop brings about, then the ALERT the event owes
(R52, R132, R154, R166). The effects come first and the drops act in the run state they find (log 10). With no message
before it the ALERT is the first dropped, and the FEED PAUSE orders come behind it (log 11). -/
def State.turningAway (s : State) (u : State) (ms : List Message) : State :=
  let alert := s.alertFor (u.dropping ms)
  let pauses := if u.rc.state = .run then u.pauseOrders else []
  (if ms = [] then if alert = [] then u else (u.dropping alert).dropping pauses
    else ((u.dropping ms).dropping pauses).dropping alert).sending []

/-! ### Ends -/

/-- The PURGED tallies of what a completed drain leaves in CQ and JQ (R122, R138). -/
def State.leftovers (s : State) : List Tally :=
  (s.queues.cq.map fun c => ⟨.caseItem, c.serial, 0, .purged, .queue, [], 0⟩)
    ++ s.queues.jq.map fun j => ⟨.jacket, j.serial, 0, .purged, .queue, [], 0⟩

/-- A drain completed: CQ and JQ emptied and tallied, DRAINED logged with their number, CONFIG entered (R138), all before
its tallies join (log 10). -/
def State.drainedOut (s : State) : State :=
  { ({ s with
      queues := { s.queues with cq := [], jq := [] }
      totals := s.totals.talliedAll s.leftovers }).logging .drained 0 0 0
        (BitVec.ofNat 16 (s.queues.cq.length + s.queues.jq.length)) with
    rc := ⟨.config, CauseSet.empty, .released⟩ }

/-- A proof run ended with `run`: PASS when all sixteen indices returned intact, else FAIL, and PROOF_DONE with the
number that did not (R157). -/
def State.proofEnded (run : ProofRun) (s : State) : State :=
  ({ s with ring :=
      { s.ring with
        proofRun := none
        proofResult := if run.intact.list.all id then .pass else .fail } }).logging .proofDone 0 0 0
          (BitVec.ofNat 16 (run.intact.list.count false))

/-! ### Titles -/

/-- No two occupied slots of a bank hold the same key (R5). -/
def Bank.unique (b : Bank) : Prop := ∀ i j, (b.get i).key ≠ 0 → (b.get i).key = (b.get j).key → i = j

/-- The first protected slot of a protect level (Table 1-2). -/
def firstProtected (p : Fin 4) : Nat := if p = 0 then 512 else if p = 1 then 384 else if p = 2 then 256 else 0

/-! ### Replies -/

/-- A CTRL REPLY OK (R129). -/
def State.okReply (s : State) (tag : Byte) : Message := ctrlReply s tag .ok .none

/-- The REPLY to a WRITE whose region, index and count are there to echo (R160). -/
def State.writeReply (s : State) (tag : Byte) (st : Status) (region : Region) (rest : List Byte) : Message :=
  ownMessage s .reply 0 tag (st.code :: region.code :: rest.take 3)

/-- WRITE `c` is only answered `st`: no effect but the arrival of its message and the REPLY (R159, R160). -/
def State.refusesWrite (s : State) (c : Instr) (h : Envelope) (st : Status) (region : Region) (rest : List Byte) : Prop :=
  s.completes c s.arrived [s.arrived.writeReply h.tag st region rest]

/-- WRITE `c` is answered OK with effects `u` (R159, R160). -/
def State.acceptsWrite (s : State) (c : Instr) (h : Envelope) (region : Region) (rest : List Byte) (u : State) : Prop :=
  s.completes c u [u.writeReply h.tag .ok region rest]

/-! ### READs -/

/-- The most records a READ of a region may ask for, its index being `n` (R7, R21, R31, R61, R88, R104, R152, R155, R161,
R162, R163, R9, Table 10-4); the widest range of Table 10-4 where the index names no collection (log 19). -/
def Region.mostRead (n : Nat) : Region → Nat
  | .title => 2
  | .dose => 4
  | .profile => 4
  | .comparator => 4
  | .linemap => 9
  | .totals => 12
  | .alerts => 3
  | .queue =>
    if n / 256 = 1 then 1
    else if n / 256 = 2 then 4
    else if n / 256 = 4 ∨ n / 256 = 5 ∨ n / 256 = 6 then 3
    else 5
  | .calibration => 1
  | .limits => 1
  | .node => 1
  | .protect => 1
  | .status => 1
  | .ident => 1

/-- The index of a READ of `k` records is in range (R7, R21, R31, R61, R88, R104, R152, R155, R161, R162, R163, R164, R167,
R9). -/
def Region.readable (n k : Nat) : Region → Prop
  | .title => n ≤ 1023
  | .dose => n ≤ 31
  | .profile => n ≤ 63
  | .comparator => n ≤ 3
  | .linemap => 1 ≤ n ∧ n ≤ 9 ∧ n + k - 1 ≤ 9
  | .totals => n ≤ 20 ∧ n + k - 1 ≤ 20
  | .queue =>
    1 ≤ n % 256 ∧ (n / 256 = 1 ∧ n % 256 ≤ 24 ∨ n / 256 = 2 ∧ n % 256 ≤ 16 ∨ n / 256 = 3 ∧ n % 256 ≤ 16
      ∨ n / 256 = 4 ∧ n % 256 ≤ 4 ∨ n / 256 = 5 ∧ n % 256 ≤ 6 ∨ n / 256 = 6 ∧ n % 256 ≤ 8)
  | .calibration => n = 0
  | .limits => n = 0
  | .node => n = 0
  | .protect => n = 0
  | .status => n = 0
  | .ident => n = 0
  | .alerts => n = 0

/-- One byte of a record: a quantity, or a flag. -/
def byteOf (n : Nat) : List Byte := [BitVec.ofNat 8 n]
def flagOf (b : Bool) : List Byte := [if b then 1 else 0]

/-- Two bytes of a record: a quantity, or a signed one. -/
def pairOf (n : Nat) : List Byte := bytes2 (BitVec.ofNat 16 n)
def signedOf (n : Int) : List Byte := bytes2 (BitVec.ofInt 16 n)

/-- The title fields that records and snapshots share, case key to paste flags, in 19 bytes (Tables 9-5 and 10-4). -/
def TitleData.bytes (d : TitleData) : List Byte :=
  bytes2 d.caseKey ++ bytes2 d.jacketKey ++ pairOf d.tn ++ pairOf d.tt ++ pairOf d.amin ++ pairOf d.amax
    ++ pairOf d.height ++ pairOf d.width ++ byteOf d.recipe.val ++ byteOf d.profile.val
    ++ byteOf (d.pasteLeft.toNat + 2 * d.pasteRight.toNat)

/-- A title record in 23 bytes (Table 9-5). -/
def TitleRecord.bytes (r : TitleRecord) : List Byte := bytes3 r.key ++ r.data.bytes ++ byteOf r.proofCount

/-- A recipe in 7 bytes (Table 9-5). -/
def Recipe.bytes (r : Recipe) : List Byte := pairOf r.filmLeft ++ pairOf r.filmRight ++ pairOf r.shot ++ byteOf r.margin

/-- A profile in 12 bytes (Table 9-5). -/
def Profile.bytes (p : Profile) : List Byte := p.entries.flatMap fun e => e.pressure :: flagOf e.heat

/-- A comparator in the 9 bytes of a READ reply (Table 9-5). -/
def Comparator.bytes (c : Comparator) : List Byte :=
  (match c.config.direction with
    | .above => [0]
    | .below => [1])
  ++ flagOf c.config.enable ++ byteOf c.config.confirm ++ signedOf c.config.onThreshold
  ++ signedOf c.config.offThreshold ++ flagOf c.on ++ byteOf c.tally

/-- The calibration record with its valid flag in 15 bytes (Table 9-5). -/
def CaliperUnit.bytes (u : CaliperUnit) : List Byte :=
  signedOf u.record.ofs ++ pairOf u.record.brk ++ pairOf u.record.g1 ++ pairOf u.record.g2 ++ pairOf u.record.tref
    ++ signedOf u.record.tco ++ signedOf u.record.tso ++ flagOf u.valid

/-- Absent count, starved count and starved mark (Table 10-4). -/
def Waiting.bytes (w : Waiting) : List Byte := byteOf w.absent ++ byteOf w.starved ++ flagOf w.mark

/-- A BQ entry in 34 bytes; an absent lookup is slot 0xFFFF and an all-zero snapshot (Table 10-4, R47). -/
def BlockEntry.bytes (b : BlockEntry) : List Byte :=
  bytes4 b.serial ++ bytes3 b.key
    ++ (match b.title with
      | some f => pairOf f.slot.val ++ f.data.bytes
      | none => [0xFF, 0xFF] ++ List.replicate 19 0)
    ++ pairOf b.thickness
    ++ byteOf ((if b.title = none then 1 else 0) + 2 * b.offCaliper.toNat + 4 * b.clamped.toNat)
    ++ byteOf b.wait.absent ++ byteOf b.wait.starved ++ [(if b.wait.mark then 0x80 else 0) ||| BitVec.ofNat 8 b.fitFail]

/-- A CQ entry in 11 bytes and a JQ entry in 9 (Table 10-4). -/
def CaseEntry.bytes (c : CaseEntry) : List Byte := bytes4 c.serial ++ bytes2 c.key ++ pairOf c.spine ++ c.wait.bytes
def JacketEntry.bytes (j : JacketEntry) : List Byte := bytes4 j.serial ++ bytes2 j.key ++ j.wait.bytes

/-- A book record in 16 bytes; an absent profile is 255 (Table 10-4, R93). -/
def BookRecord.bytes (r : BookRecord) : List Byte :=
  bytes4 r.serial ++ bytes3 r.key ++ pairOf r.thickness ++ bytes2 r.jacketKey
    ++ (match r.profile with
      | some i => byteOf i.val
      | none => [255])
    ++ byteOf (r.flags.heatSuspect.toNat + 2 * r.flags.doseClamped.toNat + 4 * r.flags.untracked.toNat) ++ r.wait.bytes

/-- A press position as a record: an empty one is zeros with profile 255 (R93). -/
def positionBytes : Option BookRecord → List Byte
  | some r => r.bytes
  | none => List.replicate 11 0 ++ [255] ++ List.replicate 4 0

/-- The records of a collection by its code, head or position 1 first (R47, R93, R164). -/
def Queues.bytes (q : Queues) (code : Nat) : List (List Byte) :=
  if code = 1 then q.bq.map BlockEntry.bytes
  else if code = 2 then q.cq.map CaseEntry.bytes
  else if code = 3 then q.jq.map JacketEntry.bytes
  else if code = 4 then q.tq.map BookRecord.bytes
  else if code = 5 then [q.pt.p1, q.pt.p2, q.pt.p3, q.pt.p4, q.pt.p5, q.pt.p6].map positionBytes
  else q.aq.map BookRecord.bytes

/-- The STATUS record (Table 10-3). -/
def State.statusBytes (s : State) : List Byte :=
  [s.rc.state.code, BitVec.ofNat 8 s.rc.causes.weight, s.ring.link.code] ++ pairOf s.ring.linkErrors
    ++ [s.queues.bq.length, s.queues.cq.length, s.queues.jq.length, s.queues.tq.length, s.queues.pt.records.length,
      s.queues.aq.length, s.ring.outbound.length, s.mu.log.length].map (BitVec.ofNat 8)
    ++ [s.titles.active.code] ++ flagOf s.titles.armed ++ bytes2 s.titles.lastMark ++ [s.ring.proofResult.code]
    ++ byteOf ((if s.store.op = .idle then 0 else 1) + (if s.mu.overrun then 2 else 0)
      + (if s.ring.proofRun = none then 0 else 4) + (if s.iron.forward.sense = .stale then 8 else 0)
      + (if s.iron.rear.sense = .stale then 16 else 0))

/-- An alert record in 15 bytes (R167). -/
def Alert.bytes (a : Alert) : List Byte :=
  [a.code.code, a.stage] ++ bytes4 a.serial ++ bytes3 a.key ++ bytes4 a.stamp ++ bytes2 a.detail

/-- The `k` successive indices from `n` on in a region of `m` records, the index after `m - 1` being 0 (R160). -/
def successive (m n k : Nat) : List Nat := (List.range k).map fun d => (n + d) % m

/-- The records that a READ of `k` records from index `n` returns, as they stand (R7, R9, R21, R31, R61, R88, R104, R152,
R155, R161, R162, R163, R164, R167). -/
def State.recordsRead (s : State) (n k : Nat) : Region → List (List Byte)
  | .title =>
    (successive 512 n k).map fun i => ((if n < 512 then s.titles.bankA else s.titles.bankB).get (Fin.ofNat 512 i)).bytes
  | .dose => (successive 32 n k).map fun i => (s.dose.recipes.get (Fin.ofNat 32 i)).bytes
  | .profile => (successive 64 n k).map fun i => (s.profiles.get (Fin.ofNat 64 i)).bytes
  | .comparator => (successive 4 n k).map fun i => (s.iron.comparators.get (Fin.ofNat 4 i)).bytes
  | .calibration => [s.ccu.bytes]
  | .limits =>
    [[s.limits.bqLow, s.limits.bqHigh, s.limits.cqLow, s.limits.cqHigh, s.limits.jqLow, s.limits.jqHigh,
      s.limits.caseWindow, s.limits.jacketWindow, s.limits.casingWait, s.limits.pressWait, s.limits.jacketWait,
      s.limits.fitFail, s.limits.stale].map (BitVec.ofNat 8)]
  | .linemap => ((s.lineMap.list.drop (n - 1)).take k).map fun node => [node]
  | .node => [[s.ring.ownNode]]
  | .protect => [byteOf s.titles.protect.val]
  | .status => [s.statusBytes]
  | .totals =>
    ((([s.totals.blocks, s.totals.cases, s.totals.jackets].flatMap fun c : ItemTotals =>
      [c.accepted, c.good, c.inspect, c.reject, c.lost, c.purged, c.untracked]).drop n).take k).map fun x =>
        bytes4 (BitVec.ofNat 32 x)
  | .ident => [[0x06, 0x40, 1, 2, 0, s.ring.ownNode]]
  | .queue => ((s.queues.bytes (n / 256)).drop (n % 256 - 1)).take k
  | .alerts => (s.mu.log.take k).map Alert.bytes

/-! ### WRITEs -/

/-- Record `d` of the records of `size` bytes each in `v`. -/
def recordAt (size : Nat) (v : List Byte) (d : Nat) : List Byte := (v.drop (size * d)).take size

/-- How far index `j` lies behind index `i`, the index after `m - 1` being 0. -/
def behind (m i j : Nat) : Nat := (j + m - i) % m

/-- A title record's bytes are in range: key 0, or every field as Table 1-1 asks (R2, Table 9-5). -/
def titleInRange (p : List Byte) : Prop :=
  keyAt p 0 = 0 ∨
    (wordAt p 3 ≠ 0 ∧ (100 ≤ natAt2 p 7 ∧ natAt2 p 7 ≤ 12000) ∧ natAt2 p 9 ≤ 1000 ∧ natAt2 p 11 ≤ 2000
      ∧ natAt2 p 13 ≤ 2000 ∧ natAt2 p 11 ≤ natAt2 p 13 ∧ (500 ≤ natAt2 p 15 ∧ natAt2 p 15 ≤ 4500)
      ∧ (500 ≤ natAt2 p 17 ∧ natAt2 p 17 ≤ 3500) ∧ natAt1 p 19 ≤ 31 ∧ natAt1 p 20 ≤ 63 ∧ natAt1 p 22 ≤ 7)

/-- The slot content a title record's bytes give: with key 0 every field 0, else the values carried (R2, Table 9-5). -/
def titleOf (p : List Byte) : TitleRecord :=
  if keyAt p 0 = 0 then ⟨0, ⟨0, 0, 0, 0, 0, 0, 0, 0, 0, 0, false, false⟩, 0⟩
  else
    ⟨keyAt p 0,
      ⟨wordAt p 3, wordAt p 5, natAt2 p 7, natAt2 p 9, natAt2 p 11, natAt2 p 13, natAt2 p 15, natAt2 p 17,
        Fin.ofNat 32 (natAt1 p 19), Fin.ofNat 64 (natAt1 p 20), bitSet (byteAt p 21) 0, bitSet (byteAt p 21) 1⟩,
      natAt1 p 22⟩

/-- A press profile's bytes give this profile (Table 9-5). -/
def profileOfBytes (p : List Byte) : Profile :=
  ⟨⟨byteAt p 0, byteAt p 1 = 1⟩, ⟨byteAt p 2, byteAt p 3 = 1⟩, ⟨byteAt p 4, byteAt p 5 = 1⟩,
    ⟨byteAt p 6, byteAt p 7 = 1⟩, ⟨byteAt p 8, byteAt p 9 = 1⟩, ⟨byteAt p 10, byteAt p 11 = 1⟩⟩

/-- A comparator record's bytes give this configuration (Table 6-5). -/
def comparatorOf (p : List Byte) : ComparatorConfig :=
  ⟨if byteAt p 0 = 0 then .above else .below, byteAt p 1 = 1, natAt1 p 2, intAt2 p 3, intAt2 p 5⟩

/-- A comparator record's bytes pass the checks of R103. -/
def comparatorInRange (p : List Byte) : Prop :=
  natAt1 p 0 ≤ 1 ∧ natAt1 p 1 ≤ 1 ∧ 1 ≤ natAt1 p 2 ∧ natAt1 p 2 ≤ 4 ∧ -400 ≤ intAt2 p 3 ∧ intAt2 p 3 ≤ 3000
    ∧ -400 ≤ intAt2 p 5 ∧ intAt2 p 5 ≤ 3000 ∧ (natAt1 p 0 = 0 → intAt2 p 5 ≤ intAt2 p 3)
    ∧ (natAt1 p 0 = 1 → intAt2 p 3 ≤ intAt2 p 5)

/-- A record logged when `b` holds. -/
def State.loggingIf (b : Bool) (code : AlertCode) (stage : Byte) (serial : Serial) (key : TitleKey) (detail : Word)
    (s : State) : State :=
  if b then s.logging code stage serial key detail else s

/-! ### The Iron Monitor -/

/-- The condition a comparator tests holds of a reading: its on-condition when OFF, its off-condition when ON (Table
6-4). -/
def Comparator.meets (c : Comparator) (reading : Int) : Prop :=
  (c.on = false ∧ c.config.direction = .above ∧ c.config.onThreshold < reading)
    ∨ (c.on = false ∧ c.config.direction = .below ∧ reading < c.config.onThreshold)
    ∨ (c.on = true ∧ c.config.direction = .above ∧ reading ≤ c.config.offThreshold)
    ∨ (c.on = true ∧ c.config.direction = .below ∧ c.config.offThreshold ≤ reading)

/-- Comparator `c` becomes `d` at a reading (R97, R98). -/
def Comparator.moves (c d : Comparator) (reading : Int) : Prop :=
  d.config = c.config
    ∧ (c.config.enable = false → d = c)
    ∧ (c.config.enable = true → ¬ c.meets reading → d.on = c.on ∧ d.tally = 0)
    ∧ (c.config.enable = true → c.meets reading → c.tally + 1 ≠ c.config.confirm → d.on = c.on ∧ d.tally = c.tally + 1)
    ∧ (c.config.enable = true → c.meets reading → c.tally + 1 = c.config.confirm → d.on = !c.on ∧ d.tally = 0)

/-! ### Cycles -/

/-- The alert of a reconciliation: PHANTOM, or ITEM_LOST for a head lost (R63, R64). -/
def State.reconciled {α : Type} (p : Presence α) (stage : Byte) (role code : Word) (serial : α → Serial)
    (key : α → TitleKey) (s : State) : State :=
  match p with
  | .available _ => s
  | .phantom => s.logging .phantom stage 0 0 role
  | .absent _ => s
  | .lost x => s.logging .itemLost stage (serial x) (key x) code
  | .nothing => s

/-- A cycle number in sequence: the last is any, or the one before it, 65535 being before 0 (R58). -/
def follows (last : Option Word) (n : Word) : Bool := decide (last = none ∨ last = some (n - 1))

/-- The gap check: nothing for a number in sequence, else CYCLE_GAP and TRACKING (R58). -/
def State.gapChecked (ok : Bool) (stage : Byte) (n : Word) (s : State) : State :=
  if ok then s else (s.logging .cycleGap stage 0 0 n).caused .tracking

/-- The FEED orders of the gap check (R132). -/
def State.gapOrders (ok : Bool) (s : State) : List Message := if ok then [] else s.causeOrders

/-- The scheme of reconciliation for entries of one kind, `counted n x` being `x` with absent count `n`: an item present
makes the head available with count 0, or is a phantom; a head not present counts one absence more, and is lost and
removed at the limit (R62, R63, R64). -/
def reconcilesBy {α : Type} (wait : α → Waiting) (setWait : Waiting → α → α) (counted : Nat → α → α) : Prop :=
  ∀ (limit : Nat) (x : α) (xs : List α),
    let absent := (wait x).absent + 1
    let r := reconcile wait setWait
    r true limit (x :: xs) = (.available (counted 0 x), counted 0 x :: xs)
    ∧ r true limit [] = (.phantom, [])
    ∧ (absent < limit → r false limit (x :: xs) = (.absent (counted absent x), counted absent x :: xs))
    ∧ (limit ≤ absent → r false limit (x :: xs) = (.lost (counted absent x), xs))
    ∧ r false limit [] = (.nothing, [])
    ∧ ((Presence.available x).head = some x ∧ (Presence.absent x).head = none ∧ (Presence.lost x).head = none
      ∧ (Presence.phantom : Presence α).head = none ∧ (Presence.nothing : Presence α).head = none)
    ∧ ((Presence.phantom : Presence α).isPhantom = true ∧ (Presence.nothing : Presence α).isPhantom = false
      ∧ (Presence.available x).isPhantom = false ∧ (Presence.absent x).isPhantom = false
      ∧ (Presence.lost x).isPhantom = false)

/-- The counts of a head starved at a cycle: the count rises, saturating at 255, and reaching the limit sets the mark
(R65). -/
def starvedCounts (w : Waiting) (limit : Nat) : Waiting :=
  ⟨w.absent, min 255 (w.starved + 1), w.mark || decide (limit ≤ min 255 (w.starved + 1))⟩

/-- STARVED is logged when the limit is reached with the mark clear (R65). -/
def starvedNow (w : Waiting) (limit : Nat) : Bool := !w.mark && decide (limit ≤ min 255 (w.starved + 1))

/-- The tally of a head lost, if one was (R64). -/
def lostTallies {α : Type} (tally : α → Tally) : Presence α → List Tally
  | .lost x => [tally x]
  | .available _ => []
  | .phantom => []
  | .absent _ => []
  | .nothing => []

/-- The tally of a phantom, if there is one: serial 0, REJECT, UNTRACKED (R63, R109). -/
def phantomAccount {α : Type} (item : ItemType) (stage : Stage) (p : Presence α) : List Tally :=
  if p.isPhantom then [⟨item, 0, 0, .reject, stage, [.untracked], 0⟩] else []

/-- What a decision comes to: the state, the codes of the two actions, the route code, the shots, the tallies, and the
FEED orders of a halt it brings about. -/
structure Served where
  after : State
  first : Byte
  second : Byte
  route : Byte
  left : Nat
  right : Nat
  ys : List Tally
  orders : List Message

/-- The state with BQ, CQ, JQ, TQ and AQ replaced. -/
def State.holding (bq : List BlockEntry) (cq : List CaseEntry) (jq : List JacketEntry) (tq : List BookRecord)
    (aq : List BookRecord) (s : State) : State :=
  { s with queues := ⟨bq, cq, jq, tq, s.queues.pt, aq⟩ }

/-- The flags of a block entry as reasons (R67). -/
def blockReasons (b : BlockEntry) : List TallyReason :=
  (if b.title = none then [.unknownTitle] else []) ++ (if b.offCaliper then [.offCaliper] else [])
    ++ (if b.clamped then [.caliperClamped] else [])

/-- A block's tally (R75). -/
def blockTally (b : BlockEntry) (route : Route) (stage : Stage) (reasons : List TallyReason) : Tally :=
  ⟨.block, b.serial, if b.title = none then 0 else b.key, route, stage, reasons, b.thickness⟩

/-- A book record's tally: its flags and `more` as reasons (R117). -/
def bookTally (r : BookRecord) (route : Route) (stage : Stage) (more : List TallyReason) : Tally :=
  ⟨.block, r.serial, r.key, route, stage,
    (if r.flags.doseClamped then [.doseClamped] else []) ++ (if r.flags.heatSuspect then [.heatSuspect] else [])
      ++ (if r.flags.untracked then [.untracked] else []) ++ more, r.thickness⟩

/-- A MATCH: shots and carries, a DOSE_CLAMPED for each clamped side, the case tallied GOOD, the book record into TQ, or
lost at a full one (R34, R70, R71, R72). -/
def matchServed (b : BlockEntry) (c : CaseEntry) (d : TitleData) (s : State) : Served :=
  let x := s.dose.dose d
  let q := s.queues
  let a := ((({ s with dose := x.unit }).holding q.bq.tail q.cq.tail q.jq q.tq q.aq).loggingIf x.left.clamped
    .doseClamped 16 b.serial b.key (BitVec.ofNat 16 (2 * d.recipe.val))).loggingIf x.right.clamped
      .doseClamped 16 b.serial b.key (BitVec.ofNat 16 (2 * d.recipe.val + 1))
  let r : BookRecord :=
    ⟨b.serial, b.key, b.thickness, d.jacketKey, some d.profile, ⟨false, x.left.clamped || x.right.clamped, false⟩,
      ⟨0, 0, false⟩⟩
  let good : Tally := ⟨.caseItem, c.serial, 0, .good, .casing, [], 0⟩
  if q.tq.length < 4 then
    ⟨a.holding q.bq.tail q.cq.tail q.jq (q.tq ++ [r]) q.aq, 1, 1, 0, x.left.shots, x.right.shots, [good], []⟩
  else
    ⟨(a.logging .queueOverflow 16 b.serial b.key 4).caused .overflow, 1, 1, 0, x.left.shots, x.right.shots,
      [good, bookTally r .lost .casing []], a.causeOrders⟩

/-- The effects of each casing decision; actions 1 TAKE, 2 HOLD, 3 DIVERT or EJECT, 0 NONE (R67 to R73). -/
def casingServed (d : CasingCase) (s : State) : Served :=
  let q := s.queues
  let reject := fun (c : CaseEntry) (r : TallyReason) => (⟨.caseItem, c.serial, 0, .reject, .casing, [r], 0⟩ : Tally)
  match d with
  | .flagged b =>
    ⟨s.holding q.bq.tail q.cq q.jq q.tq q.aq, 3, 2, 0, 0, 0, [blockTally b .reject .casing (blockReasons b)], []⟩
  | .wrongCase c => ⟨s.holding q.bq q.cq.tail q.jq q.tq q.aq, 2, 3, 0, 0, 0, [reject c .wrongCase], []⟩
  | .noCase b => ⟨s.holding q.bq.tail q.cq q.jq q.tq q.aq, 3, 2, 0, 0, 0, [blockTally b .reject .casing [.noCase]], []⟩
  | .misfit b c =>
    ⟨s.holding ({ b with fitFail := b.fitFail + 1 } :: q.bq.tail) q.cq.tail q.jq q.tq q.aq, 2, 3, 0, 0, 0,
      [reject c .fit], []⟩
  | .misfitLimit b c =>
    ⟨s.holding q.bq.tail q.cq.tail q.jq q.tq q.aq, 3, 3, 0, 0, 0, [blockTally b .reject .casing [.fit], reject c .fit], []⟩
  | .matched b c d => matchServed b c d s
  | .blockWaits b =>
    ⟨(s.holding ({ b with wait := starvedCounts b.wait s.limits.casingWait } :: q.bq.tail) q.cq q.jq q.tq q.aq).loggingIf
      (starvedNow b.wait s.limits.casingWait) .starved 16 b.serial b.key 1, 2, 0, 0, 0, 0, [], []⟩
  | .caseWaits c =>
    ⟨(s.holding q.bq ({ c with wait := starvedCounts c.wait s.limits.casingWait } :: q.cq.tail) q.jq q.tq q.aq).loggingIf
      (starvedNow c.wait s.limits.casingWait) .starved 16 c.serial 0 2, 0, 2, 0, 0, 0, [], []⟩
  | .neither => ⟨s, 0, 0, 0, 0, 0, [], []⟩

/-- The route of a passed book, by the first test that holds, with the reason it adds and the proof count it takes
(R116, R16). -/
def State.passing (k : BookRecord) (without : Bool) (s : State) : State × Route × List TallyReason :=
  let bare := if without then [TallyReason.noJacket] else []
  if k.flags.untracked then (s, .reject, bare)
  else if k.flags.heatSuspect || k.flags.doseClamped || without then (s, .inspect, bare)
  else match s.titles.slotOf k.key with
    | none => (s, .good, [])
    | some i =>
      if s.titles.proofLeft.get i = 0 then (s, .good, [])
      else
        ({ s with titles :=
          { s.titles with proofLeft := s.titles.proofLeft.set i (s.titles.proofLeft.get i - 1) } }, .inspect, [.proofCopy])

/-- The effects of each jacket decision; actions 1 PASS or APPLY, 2 HOLD, 3 EJECT, 0 NONE (R112 to R117). -/
def jacketServed (d : JacketCase) (s : State) : Served :=
  let q := s.queues
  let pass := fun (k : BookRecord) (without : Bool) (jq : List JacketEntry) (jacket : Byte) (more : List Tally) =>
    let r := (s.holding q.bq q.cq jq q.tq q.aq.tail).passing k without
    (⟨r.1, 1, jacket, r.2.1.code, 0, 0, bookTally k r.2.1 .jacketing r.2.2 :: more, []⟩ : Served)
  match d with
  | .unjacketed k => pass k false q.jq 0 []
  | .wrongJacket j =>
    ⟨s.holding q.bq q.cq q.jq.tail q.tq q.aq, 2, 3, 0, 0, 0,
      [⟨.jacket, j.serial, 0, .reject, .jacketing, [.wrongJacket], 0⟩], []⟩
  | .noJacket k => pass k true q.jq 2 []
  | .apply k j => pass k false q.jq.tail 1 [⟨.jacket, j.serial, 0, .good, .jacketing, [], 0⟩]
  | .bookWaits k =>
    ⟨(s.holding q.bq q.cq q.jq q.tq ({ k with wait := starvedCounts k.wait s.limits.jacketWait } :: q.aq.tail)).loggingIf
      (starvedNow k.wait s.limits.jacketWait) .starved 18 k.serial k.key 6, 2, 0, 0, 0, 0, [], []⟩
  | .jacketWaits j =>
    ⟨(s.holding q.bq q.cq ({ j with wait := starvedCounts j.wait s.limits.jacketWait } :: q.jq.tail) q.tq q.aq).loggingIf
      (starvedNow j.wait s.limits.jacketWait) .starved 18 j.serial 0 3, 0, 2, 0, 0, 0, [], []⟩
  | .neither => ⟨s, 0, 0, 0, 0, 0, [], []⟩

/-- Entry `i` (position `i + 1`) of the profile a record is pressed by, all zero without one (R86, R87). -/
def State.entryOf (s : State) (i : Nat) (r : BookRecord) : ProfileEntry :=
  match r.profile with
  | some k => (s.profiles.get k).entries.getD i ⟨0, false⟩
  | none => ⟨0, false⟩

/-- A record at position `i + 1` after suspect marking (R89). -/
def State.examined (s : State) (i : Nat) (r : BookRecord) : BookRecord :=
  if (s.entryOf i r).heat = true ∧ s.iron.inAlarm (if i < 3 then .forward else .rear) = true then
    { r with flags := { r.flags with heatSuspect := true } }
  else r

/-- A bank record after a stale advance (R101). -/
def BankRecord.next (limit : Nat) (r : BankRecord) : BankRecord :=
  ⟨if r.sense = .fresh ∧ min limit (r.counter + 1) = limit then .stale else r.sense, min limit (r.counter + 1)⟩

/-- The stale advance of both banks, each that becomes STALE logged, FORWARD first (R101). -/
def State.staleAdvanced (s : State) : State :=
  let f := s.iron.forward.next s.limits.stale
  let r := s.iron.rear.next s.limits.stale
  (({ s with iron := { s.iron with forward := f, rear := r } }).loggingIf (f.sense != s.iron.forward.sense)
    .senseStale 17 0 0 0).loggingIf (r.sense != s.iron.rear.sense) .senseStale 17 0 0 1

/-- Bits of a byte, bit 0 first (Table 9-3). -/
def bits : List Bool → Nat
  | [] => 0
  | b :: bs => b.toNat + 2 * bits bs

/-- The end of a taken cycle that found the queues as `before`, formed `orders` of FEED, and has effects `u`, its order
and its tallies: they join, a removal that leaves BQ, TQ, PT and AQ empty in DRAIN completes the drain, the feed
levels follow (R76, R92, R119, R138). A completion is stated where the outbound queue has room for what precedes it;
a drop there halts the line and leaves the drain open (R132, R138). At a full queue every message is dropped (R154).
Of this the model's choices are: the feed levels computed once, at the end of the event, and the drain checked only after
a removal (log 21); the changes of state before the messages, so that a drop acts in the run state then standing and a
completed drain's tallies join in CONFIG (log 10); the FEED PAUSE orders and the ALERT that a drop brings about behind
what has joined (log 11). -/
def State.cycleEnds (s : State) (c : Instr) (before : Queues) (removed : Bool) (u : State) (order : Message)
    (ys : List Tally) (orders : List Message) : Prop :=
  let ends := removed = true ∧ u.rc.state = .drain ∧ u.queues.bq = [] ∧ u.queues.tq = [] ∧ u.queues.aq = []
    ∧ u.queues.pt = ⟨none, none, none, none, none, none⟩
  (¬ ends →
    s.completes c (u.relevelled before) (order :: ys.map (tallyMessage u) ++ orders ++ u.relevelOrders before))
  ∧ (ends → u.ring.outbound.length + 1 + ys.length ≤ 32 →
    s.completes c (u.drainedOut.relevelled before)
      (order :: ys.map (tallyMessage u) ++ u.leftovers.map (tallyMessage u) ++ orders
        ++ u.drainedOut.relevelOrders before))
  ∧ (32 ≤ u.ring.outbound.length →
    let v := u.dropping (order :: ys.map (tallyMessage u))
    let feeds := orders ++ (if u.rc.state = .run then u.pauseOrders else []) ++ v.relevelOrders before
    let w := (v.relevelled before).dropping feeds
    exec c s = .next ((w.dropping (s.alertFor w)).sending []))

/-! ### Invariants: the line -/

/-- No item is held (Table 3-2). -/
def Queues.isEmpty (q : Queues) : Prop :=
  q.bq = [] ∧ q.cq = [] ∧ q.jq = [] ∧ q.tq = [] ∧ q.pt = ⟨none, none, none, none, none, none⟩ ∧ q.aq = []

/-- Run Control: the cause set is nonempty and STOP_N low exactly in HALT, nothing is held in CONFIG, the last levels
sent are PAUSE outside RUN, and DRAIN holds something to drain (R50, R127, R128, R134, R138). -/
def State.runSound (s : State) : Prop :=
  (s.rc.state = .halt ↔ s.rc.causes ≠ CauseSet.empty) ∧ (s.rc.stopN = .low ↔ s.rc.state = .halt)
    ∧ (s.rc.state = .config → s.queues.isEmpty) ∧ (s.rc.state ≠ .run → s.feed = ⟨.pause, .pause, .pause⟩)
    ∧ (s.rc.state = .drain →
      ¬ (s.queues.bq = [] ∧ s.queues.tq = [] ∧ s.queues.pt = ⟨none, none, none, none, none, none⟩ ∧ s.queues.aq = []))

/-- Management: at most 32 records, ATTN high exactly while there is one, overrun set only beside records (R165, R166,
R167). -/
def State.logSound (s : State) : Prop :=
  s.mu.log.length ≤ 32 ∧ (s.mu.attn = .high ↔ s.mu.log ≠ []) ∧ (s.mu.overrun = true → s.mu.log ≠ [])

/-- Every queue and buffer is within its capacity (R42, R72, R83, R153, R154). -/
def State.capacitySound (s : State) : Prop :=
  s.queues.bq.length ≤ 24 ∧ s.queues.cq.length ≤ 16 ∧ s.queues.jq.length ≤ 16 ∧ s.queues.tq.length ≤ 4
    ∧ s.queues.aq.length ≤ 8 ∧ s.ring.outbound.length ≤ 32 ∧ s.ring.forward.length ≤ 2

/-- The Ring Port: the link is UP only below eight bad messages in a row, the counts saturate, and an idle transmitter
leaves nothing waiting (R147, R148, R153). -/
def State.ringSound (s : State) : Prop :=
  s.ring.consecBad ≤ 8 ∧ (s.ring.link = .up → s.ring.consecBad ≤ 7) ∧ s.ring.linkErrors ≤ 65535
    ∧ (s.phase = .running → s.ring.tx = .idle → s.ring.outbound = [] ∧ s.ring.forward = [])

/-- Start-up: until the load is over the part is in CONFIG, its ring is still, and no carry is left (R144, R158,
R170). -/
def State.startUpSound (s : State) : Prop :=
  s.phase ≠ .running →
    s.rc.state = .config ∧ s.ring.link = .down ∧ s.ring.tx = .idle ∧ s.ring.forward = [] ∧ s.ring.proofRun = none
      ∧ ∀ x ∈ s.dose.carries.list, x = 0

/-- The invariant of the line. -/
def State.lineSound (s : State) : Prop :=
  s.runSound ∧ s.logSound ∧ s.capacitySound ∧ s.ringSound ∧ s.startUpSound

/-! ### Invariants: the data -/

/-- A slot's content: empty with every field 0, or every field in range (Table 1-1). -/
def TitleRecord.sound (r : TitleRecord) : Prop :=
  r = ⟨0, ⟨0, 0, 0, 0, 0, 0, 0, 0, 0, 0, false, false⟩, 0⟩ ∨
    (r.key ≠ 0 ∧ r.data.caseKey ≠ 0 ∧ (100 ≤ r.data.tn ∧ r.data.tn ≤ 12000) ∧ r.data.tt ≤ 1000
      ∧ r.data.amin ≤ r.data.amax ∧ r.data.amax ≤ 2000 ∧ (500 ≤ r.data.height ∧ r.data.height ≤ 4500)
      ∧ (500 ≤ r.data.width ∧ r.data.width ≤ 3500) ∧ r.proofCount ≤ 7)

/-- The Title Table: both banks hold sound slots with no key twice, and no slot has more proof copies left than the
active bank gives it (R1, R2, R5, R15, R16). -/
def TitleTable.sound (t : TitleTable) : Prop :=
  (∀ r ∈ t.bankA.list ++ t.bankB.list, r.sound) ∧ Bank.unique t.bankA ∧ Bank.unique t.bankB
    ∧ ∀ i, t.proofLeft.get i ≤ (t.activeBank.get i).proofCount

/-- Calibration, limits and comparators in range (Table 2-1, R49, R61, R102, R103). -/
def State.settingsSound (s : State) : Prop :=
  s.ccu.record.inRange = true ∧ s.limits.inRange = true
    ∧ (∀ c ∈ s.iron.comparators.list, c.config.inRange = true ∧ c.tally < c.config.confirm
      ∧ (c.config.enable = false → c.on = false ∧ c.tally = 0))
    ∧ (1 ≤ s.ring.ownNode.toNat ∧ s.ring.ownNode.toNat ≤ 62) ∧ ∀ n ∈ s.lineMap.list, n.toNat ≤ 62

/-- The Dose Unit: recipes in range, every carry below its recipe's shot size (R30, R33). -/
def DoseUnit.sound (u : DoseUnit) : Prop :=
  (∀ r ∈ u.recipes.list, r.inRange = true)
    ∧ ∀ i : Fin 64, u.carries.get i < (u.recipes.get (Fin.ofNat 32 (i.val / 2))).shot

/-- The counts of the waiting entries: absences below the wait limit, starved cycles at most 255, fit failures below
the fit-fail limit, thickness as the caliper gives it (R26, R64, R65, R69). -/
def State.countsSound (s : State) : Prop :=
  (∀ b ∈ s.queues.bq, b.wait.absent < s.limits.casingWait ∧ b.wait.starved ≤ 255 ∧ b.fitFail < s.limits.fitFail
    ∧ b.thickness ≤ 12000 ∧ (b.clamped = true → b.offCaliper = true) ∧ (b.title = none → b.offCaliper = false))
  ∧ (∀ c ∈ s.queues.cq, c.wait.absent < s.limits.casingWait ∧ c.wait.starved ≤ 255 ∧ c.key ≠ 0 ∧ c.spine ≤ 15000)
  ∧ (∀ j ∈ s.queues.jq, j.wait.absent < s.limits.jacketWait ∧ j.wait.starved ≤ 255 ∧ j.key ≠ 0)
  ∧ (∀ r ∈ s.queues.tq, r.wait.absent < s.limits.pressWait ∧ r.thickness ≤ 12000)
  ∧ (∀ r ∈ s.queues.pt.records, r.thickness ≤ 12000)
  ∧ (∀ r ∈ s.queues.aq, r.wait.absent < s.limits.jacketWait ∧ r.wait.starved ≤ 255 ∧ r.thickness ≤ 12000)

/-- The nonzero serials of the block type, over BQ, TQ, PT and AQ. -/
def Queues.blockSerials (q : Queues) : List Serial :=
  q.bq.map BlockEntry.serial
    ++ ((q.tq ++ q.pt.records ++ q.aq).map BookRecord.serial).filter fun x => x != 0

/-- No serial is 0 in BQ, CQ and JQ, and no serial is held twice within a type (R38, R40, R41). -/
def Queues.serialsSound (q : Queues) : Prop :=
  q.blockSerials.Nodup ∧ (q.cq.map CaseEntry.serial).Nodup ∧ (q.jq.map JacketEntry.serial).Nodup
    ∧ (∀ b ∈ q.bq, b.serial ≠ 0) ∧ (∀ c ∈ q.cq, c.serial ≠ 0) ∧ ∀ j ∈ q.jq, j.serial ≠ 0

/-- The invariant of the data. -/
def State.dataSound (s : State) : Prop :=
  s.titles.sound ∧ s.settingsSound ∧ s.dose.sound ∧ s.countsSound ∧ s.queues.serialsSound

/-! ### Accounting -/

/-- The tallies of a type's sighted items, across all routes (R125). -/
def ItemTotals.closed (c : ItemTotals) : Nat := c.good + c.inspect + c.reject + c.lost + c.purged

/-- The accounting equation of each item type: accepted sightings are held items plus tallies (R125). -/
def State.balanced (s : State) : Prop :=
  s.totals.blocks.accepted = s.queues.blockSerials.length + s.totals.blocks.closed
    ∧ s.totals.cases.accepted = s.queues.cq.length + s.totals.cases.closed
    ∧ s.totals.jackets.accepted = s.queues.jq.length + s.totals.jackets.closed

/-- No total has saturated (R123). -/
def State.unsaturated (s : State) : Prop :=
  ∀ c ∈ [s.totals.blocks, s.totals.cases, s.totals.jackets],
    c.accepted < 4294967295 ∧ c.good < 4294967295 ∧ c.inspect < 4294967295 ∧ c.reject < 4294967295
      ∧ c.lost < 4294967295 ∧ c.purged < 4294967295

end Sys2Proof.Machine
end

