-- ==== Sys2Proof/WellFormed.lean ====
section
/-! DEFINITION. Well-formed commands: a command whose operands can come about as its row says. Meanings do not depend
on it; an ill-formed command is one the row's name does not fit. -/

namespace Sys2Proof

/-- A message the Ring Port finds good (R147). -/
def goodMessage (m : Message) : Bool := Machine.goodHeader m

/-- A message of kind `k` with header `h` and payload `p` that is good. -/
def goodUnder (h : Envelope) (k : Machine.Kind) (p : List Byte) : Bool := goodMessage (h.message k.code p)

/-- The role byte a SIGHT or CYCLE payload opens with is `r`. -/
def opensWith (p : List Byte) (r : Byte) : Bool := p.head? == some r

/-- A good CTRL whose payload is request `r` and then `rest`. -/
def goodCtrl (h : Envelope) (r : Machine.Request) (rest : List Byte) : Bool := goodUnder h .ctrl (r.code :: rest)

/-- A good WRITE to region `r` whose payload goes on with `rest`. -/
def goodWrite (h : Envelope) (r : Machine.Region) (rest : List Byte) : Bool := goodUnder h .write (r.code :: rest)

/-- The bytes of a bad message (R147). -/
def badBytes (bytes : List Byte) : Bool := (Machine.decode bytes).isNone

/-- The kinds of the part's own orders (R151). -/
def orderKind (k : Byte) : Bool :=
  [Machine.Kind.feed.code, Machine.Kind.casein.code, Machine.Kind.press.code, Machine.Kind.jacket.code].contains k

/-- A quantity fits the `n` bytes of its field; a signed one the two bytes of its field (Table 9-5). -/
def fitsBytes (n : Nat) (x : Nat) : Bool := decide (x < 256 ^ n)
def fitsSigned (x : Int) : Bool := decide (-32768 ≤ x ∧ x ≤ 32767)

/-- The values that cells read as fit the fields that hold them (log 14). -/
def CellReport.fits (c : CellReport) : Bool :=
  (c.calibration.reads.all fun u =>
    [u.record.brk, u.record.g1, u.record.g2, u.record.tref].all (fitsBytes 2)
      && [u.record.ofs, u.record.tco, u.record.tso].all fitsSigned)
  && (c.comparators.reads.all fun t => t.list.all fun r =>
    fitsBytes 1 r.confirm && fitsSigned r.onThreshold && fitsSigned r.offThreshold)
  && (c.limits.reads.all fun l =>
    [l.bqLow, l.bqHigh, l.cqLow, l.cqHigh, l.jqLow, l.jqHigh, l.caseWindow, l.jacketWindow, l.casingWait, l.pressWait,
      l.jacketWait, l.fitFail, l.stale].all (fitsBytes 1))
  && (c.recipes.reads.all fun g => g.recipes.list.all fun r =>
    fitsBytes 2 r.filmLeft && fitsBytes 2 r.filmRight && fitsBytes 2 r.shot && fitsBytes 1 r.margin)

/-- A command whose operands fit its row. -/
def Instr.wellFormed : Instr → Bool
  | .powerOnReset written => decide (written ≤ 7)
  | .powerOnLoad cells => cells.fits
  | .loadComplete => true
  | .carrierFound => true
  | .carrierLost => true
  | .badMessage bytes => badBytes bytes
  | .consecutiveBadLimit bytes => badBytes bytes
  | .forwardMessage m => goodMessage m
  | .blockSight h p => goodUnder h .sight p && !opensWith p 2 && !opensWith p 3
  | .caseSight h p => goodUnder h .sight p && opensWith p 2
  | .jacketSight h p => goodUnder h .sight p && opensWith p 3
  | .casingCycle h p => goodUnder h .cycle p && !opensWith p 8 && !opensWith p 9
  | .itemLost h p => goodUnder h .cycle p && p.length == 4
  | .starved h p => goodUnder h .cycle p && (opensWith p 7 || opensWith p 9)
  | .fitFailLimit h p => goodUnder h .cycle p && opensWith p 7
  | .pressIndex h p => goodUnder h .cycle p && opensWith p 8
  | .senseStale h p => goodUnder h .cycle p && opensWith p 8
  | .jacketCycle h p => goodUnder h .cycle p && opensWith p 9
  | .drainComplete m => goodMessage m && (m.kind == Machine.Kind.cycle.code || m.kind == Machine.Kind.ctrl.code)
  | .sense h p => goodUnder h .sense p
  | .ironAlarmOn h p => goodUnder h .sense p && p.length == 3
  | .ironAlarmOff h p => goodUnder h .sense p && p.length == 3
  | .mark h p => goodUnder h .mark p
  | .start h rest => goodCtrl h .start rest
  | .halt h rest => goodCtrl h .halt rest
  | .resume h rest => goodCtrl h .resume rest
  | .drain h rest => goodCtrl h .drain rest
  | .abort h rest => goodCtrl h .abort rest
  | .purge h rest => goodCtrl h .purge rest
  | .clear h rest => goodCtrl h .clear rest
  | .reset h rest => goodCtrl h .reset rest
  | .arm h rest => goodCtrl h .arm rest
  | .disarm h rest => goodCtrl h .disarm rest
  | .copy h rest => goodCtrl h .copy rest
  | .store h rest => goodCtrl h .store rest
  | .storeDone => true
  | .proof h rest => goodCtrl h .proof rest
  | .proofReturn h p => goodUnder h .proof p
  | .proofTimeout => true
  | .strippedOrder m => goodMessage m && orderKind m.kind
  | .transmitComplete => true
  | .unknownKind m => goodMessage m
  | .titleWrite h rest => goodWrite h .title rest
  | .protectWrite h _ rest => goodWrite h .protect rest
  | .calibrationWrite h rest => goodWrite h .calibration rest
  | .doseWrite h rest => goodWrite h .dose rest
  | .profileWrite h rest => goodWrite h .profile rest
  | .limitsWrite h rest => goodWrite h .limits rest
  | .linemapWrite h rest => goodWrite h .linemap rest
  | .nodeWrite h rest => goodWrite h .node rest
  | .comparatorWrite h rest => goodWrite h .comparator rest
  | .writeUnknownRegion h p => goodUnder h .write p
  | .alertsRead h p => goodUnder h .read p

end Sys2Proof
end

