-- ==== Sys2Proof/Certificates/Slice0/Obligations.lean ====
section
/-! DEFINITION. The statements for the provers. Each says which rule of spec/ it rests on; a state quantified over need
not be one that a run reaches. -/

open Sys2Proof Sys2Proof.Machine

/-! ### The step -/

/-- One step runs the command at the front of the queue on the state with the queue's rest; with nothing waiting the
part idles, which is the model's own choice (log 3). -/
def Obligations.StepRunsFrontCommand : Prop :=
  (∀ (c : Instr) (rest : List Instr) (s : State),
    step { s with pending := c :: rest } = exec c { s with pending := rest })
  ∧ ∀ s : State, s.pending = [] → step s = .next s

/-- Every command completes in every state, and none touches the queue of waiting commands. That a command whose event
cannot come about in the state it finds completes too, without effect, is the model's choice (log 4). -/
def Obligations.EveryCommandCompletes : Prop :=
  ∀ (c : Instr) (s : State), ∃ t, exec c s = .next t ∧ t.pending = s.pending

/-! ### Power -/

/-- What power-on reset leaves (R144, R158, R17, R36, R53, R78, R94, R105, R124, R168), and the store when a STORE in
flight is cut off after `written` groups (R174; which groups were written is the command's operand, log 15). The part
then stands with RESET_N low (log 1), and a message being sent is ended (log 17). -/
def Obligations.PowerOnResetValues : Prop :=
  ∀ (written : Nat) (s : State), ∃ t, exec (.powerOnReset written) s = .next t
    ∧ t.phase = .held ∧ t.pins = s.pins ∧ t.ring.tx = .idle
    ∧ t.rc = ⟨.config, CauseSet.empty, .released⟩
    ∧ t.ring.link = .down ∧ t.ring.linkErrors = 0 ∧ t.ring.consecBad = 0 ∧ t.ring.outbound = []
    ∧ t.ring.forward = [] ∧ t.ring.proofRun = none ∧ t.ring.proofResult = .none ∧ t.ring.formerNode = none
    ∧ (∀ i, t.titles.bankA.get i = ⟨0, TitleData.zero, 0⟩ ∧ t.titles.bankB.get i = ⟨0, TitleData.zero, 0⟩
      ∧ t.titles.proofLeft.get i = 0)
    ∧ t.titles.active = .a ∧ t.titles.armed = false ∧ t.titles.lastMark = 0
    ∧ (∀ i, t.dose.carries.get i = 0)
    ∧ t.queues = ⟨[], [], [], [], ⟨none, none, none, none, none, none⟩, []⟩
    ∧ t.cycles = ⟨none, none, none, 0⟩ ∧ t.feed = ⟨.pause, .pause, .pause⟩
    ∧ t.totals = ⟨⟨0, 0, 0, 0, 0, 0, 0⟩, ⟨0, 0, 0, 0, 0, 0, 0⟩, ⟨0, 0, 0, 0, 0, 0, 0⟩⟩
    ∧ (∀ i, (t.iron.comparators.get i).on = false ∧ (t.iron.comparators.get i).tally = 0)
    ∧ t.iron.forward = ⟨.stale, 0⟩ ∧ t.iron.rear = ⟨.stale, 0⟩
    ∧ t.mu = ⟨[], false, .low⟩
    ∧ t.store.op = .idle
    ∧ (s.store.op = .idle → t.store = s.store)
    ∧ ∀ w, s.store.op = .inFlight w →
      (if 1 ≤ written then t.store.node = ⟨true, w.node, .clean⟩ else t.store.node.marker = false)
      ∧ (if 2 ≤ written then t.store.caliper = ⟨true, w.caliper, .clean⟩ else t.store.caliper.marker = false)
      ∧ (if 3 ≤ written then t.store.comparators = ⟨true, w.comparators, .clean⟩
        else t.store.comparators.marker = false)
      ∧ (if 4 ≤ written then t.store.limits = ⟨true, w.limits, .clean⟩ else t.store.limits.marker = false)
      ∧ (if 5 ≤ written then t.store.lineMap = ⟨true, w.lineMap, .clean⟩ else t.store.lineMap.marker = false)
      ∧ (if 6 ≤ written then t.store.recipes = ⟨true, w.recipes, .clean⟩ else t.store.recipes.marker = false)
      ∧ (if 7 ≤ written then t.store.protect = ⟨true, w.protect, .clean⟩ else t.store.protect.marker = false)

/-- The power-on load, from the state a power-on reset leaves: each group gives its stored values when it is usable and
its defaults otherwise, its outcome is logged in group order, and nothing else changes but the ALERT that waits (R170,
R171; what the cells hold beyond that is log 14); first, which stored values are in range (R170, with the ranges of
R9, R20, R30, R49, R61, R88, R102, R103; orders of marks and thresholds: log 24). -/
def Obligations.PowerOnLoadTakesSettings : Prop :=
  ((∀ n : Node, stationNode n = true ↔ 1 ≤ n.toNat ∧ n.toNat ≤ 62)
    ∧ (∀ c : Calibration, c.inRange = true ↔
      -2048 ≤ c.ofs ∧ c.ofs ≤ 2047 ∧ c.brk ≤ 16383 ∧ (1 ≤ c.g1 ∧ c.g1 ≤ 65535) ∧ (1 ≤ c.g2 ∧ c.g2 ≤ 65535)
        ∧ c.tref ≤ 4095 ∧ (-32768 ≤ c.tco ∧ c.tco ≤ 32767) ∧ (-32768 ≤ c.tso ∧ c.tso ≤ 32767))
    ∧ (∀ t : Table ComparatorRecord 4, comparatorsInRange t = true ↔ ∀ i,
      let c := t.get i
      (c.direction = 0 ∨ c.direction = 1) ∧ (c.enable = 0 ∨ c.enable = 1) ∧ (1 ≤ c.confirm ∧ c.confirm ≤ 4)
        ∧ (-400 ≤ c.onThreshold ∧ c.onThreshold ≤ 3000) ∧ (-400 ≤ c.offThreshold ∧ c.offThreshold ≤ 3000)
        ∧ (c.direction = 0 → c.offThreshold ≤ c.onThreshold) ∧ (c.direction = 1 → c.onThreshold ≤ c.offThreshold))
    ∧ (∀ l : Limits, l.inRange = true ↔
      (l.bqLow < l.bqHigh ∧ l.bqHigh ≤ 24) ∧ (l.cqLow < l.cqHigh ∧ l.cqHigh ≤ 16)
        ∧ (l.jqLow < l.jqHigh ∧ l.jqHigh ≤ 16) ∧ l.caseWindow ≤ 4 ∧ l.jacketWindow ≤ 4
        ∧ (1 ≤ l.casingWait ∧ l.casingWait ≤ 255) ∧ (1 ≤ l.pressWait ∧ l.pressWait ≤ 255)
        ∧ (1 ≤ l.jacketWait ∧ l.jacketWait ≤ 255) ∧ (1 ≤ l.fitFail ∧ l.fitFail ≤ 3) ∧ (1 ≤ l.stale ∧ l.stale ≤ 255))
    ∧ (∀ m : LineMap, lineMapInRange m = true ↔ ∀ i, (m.get i).toNat ≤ 62)
    ∧ (∀ g : RecipeGroup, g.inRange = true ↔
      (∀ i, (g.recipes.get i).filmLeft ≤ 500 ∧ (g.recipes.get i).filmRight ≤ 500
        ∧ (1 ≤ (g.recipes.get i).shot ∧ (g.recipes.get i).shot ≤ 65535) ∧ (g.recipes.get i).margin ≤ 200)
      ∧ ∀ i, ∀ e ∈ (g.profiles.get i).entries, e.heat = 0 ∨ e.heat = 1)
    ∧ ∀ v : Byte, protectInRange v = true ↔ v.toNat ≤ 3)
  ∧ ∀ (cells : CellReport) (s : State), s.phase = .held → s.mu = ⟨[], false, .low⟩ → s.ring.outbound = [] →
    let g := s.store.aged cells
    ∃ t, exec (.powerOnLoad cells) s = .next t
      ∧ (g.node.usable stationNode → t.ring.ownNode = g.node.content)
      ∧ (¬ g.node.usable stationNode → t.ring.ownNode = 62)
      ∧ (g.caliper.usable (fun c => c.record.inRange) → t.ccu = g.caliper.content)
      ∧ (¬ g.caliper.usable (fun c => c.record.inRange) →
        t.ccu = ⟨⟨0, 16383, 4096, 4096, 2048, 0, 0⟩, false⟩)
      ∧ (g.comparators.usable comparatorsInRange →
        t.iron.comparators = g.comparators.content.map fun c : ComparatorRecord =>
          ⟨⟨if c.direction = 0 then .above else .below, decide (c.enable = 1), c.confirm, c.onThreshold, c.offThreshold⟩,
            false, 0⟩)
      ∧ (¬ g.comparators.usable comparatorsInRange →
        t.iron.comparators.list =
          [⟨⟨.above, true, 2, 2000, 1900⟩, false, 0⟩, ⟨⟨.below, true, 2, 1400, 1500⟩, false, 0⟩,
            ⟨⟨.above, true, 2, 2000, 1900⟩, false, 0⟩, ⟨⟨.below, true, 2, 1400, 1500⟩, false, 0⟩])
      ∧ (g.limits.usable Limits.inRange → t.limits = g.limits.content)
      ∧ (¬ g.limits.usable Limits.inRange → t.limits = ⟨4, 12, 3, 8, 3, 8, 2, 2, 3, 2, 3, 2, 8⟩)
      ∧ (g.lineMap.usable lineMapInRange → t.lineMap = g.lineMap.content)
      ∧ (¬ g.lineMap.usable lineMapInRange → ∀ i, t.lineMap.get i = 0)
      ∧ (g.recipes.usable RecipeGroup.inRange →
        t.dose.recipes = g.recipes.content.recipes
          ∧ ∀ i, (t.profiles.get i).entries =
            (g.recipes.content.profiles.get i).entries.map fun e => ⟨e.pressure, decide (e.heat = 1)⟩)
      ∧ (¬ g.recipes.usable RecipeGroup.inRange →
        (∀ i, t.dose.recipes.get i = ⟨0, 0, 1, 0⟩) ∧ ∀ i, ∀ e ∈ (t.profiles.get i).entries, e = ⟨0, false⟩)
      ∧ (g.protect.usable protectInRange → t.titles.protect.val = g.protect.content.toNat)
      ∧ (¬ g.protect.usable protectInRange → t.titles.protect = 3)
      ∧ t.mu.log =
        g.node.records stationNode 1 s.cycles.stamp
          ++ g.caliper.records (fun c => c.record.inRange) 2 s.cycles.stamp
          ++ g.comparators.records comparatorsInRange 3 s.cycles.stamp
          ++ g.limits.records Limits.inRange 4 s.cycles.stamp
          ++ g.lineMap.records lineMapInRange 5 s.cycles.stamp
          ++ g.recipes.records RecipeGroup.inRange 6 s.cycles.stamp
          ++ g.protect.records protectInRange 7 s.cycles.stamp
      ∧ (t.mu.attn = .high ↔ t.mu.log ≠ [])
      ∧ t.ring.outbound = s.alertFor t
      ∧ t = { s with
          phase := .loading
          store := g
          ring := { s.ring with ownNode := t.ring.ownNode, outbound := t.ring.outbound }
          lineMap := t.lineMap
          titles := { s.titles with protect := t.titles.protect }
          ccu := t.ccu
          dose := { s.dose with recipes := t.dose.recipes }
          limits := t.limits
          profiles := t.profiles
          iron := { s.iron with comparators := t.iron.comparators }
          mu := { s.mu with log := t.mu.log, attn := t.mu.attn } }

/-- Until the load ends nothing is received and the carrier is only a level at the pins (R170; what a message then does is
log 4); its end finds a carrier already present, and lets the transmitter begin (R148, R170). -/
def Obligations.LoadCompleteOpensRing : Prop :=
  (∀ s : State, s.phase = .loading →
    exec .loadComplete s = .next
      (({ s with
          phase := .running
          ring := if s.pins.carrier = true ∧ s.ring.link = LinkState.down then { s.ring with link := .acquiring } else s.ring
        }).sending []))
  ∧ (∀ (c : Instr) (s : State), s.phase ≠ .running →
    ((carried c).isSome ∨ ∃ bytes, c = .badMessage bytes ∨ c = .consecutiveBadLimit bytes) →
      exec c s = .next (s.withPinsOf c))
  ∧ ∀ s : State, s.phase ≠ .running →
    exec .carrierFound s = .next { s with pins := { s.pins with carrier := true } }
    ∧ exec .carrierLost s = .next { s with pins := { s.pins with carrier := false } }

/-! ### Link and reception -/

/-- The link follows the carrier (R148). -/
def Obligations.LinkFollowsCarrier : Prop :=
  ∀ s : State, s.phase = .running →
    let up := { s with pins := { s.pins with carrier := true } }
    let down := { s with pins := { s.pins with carrier := false } }
    (s.ring.link = .down →
      exec .carrierFound s = .next (({ up with ring := { s.ring with link := .acquiring } }).sending []))
    ∧ (s.ring.link ≠ .down → exec .carrierFound s = .next (up.sending []))
    ∧ (s.ring.link = .down → exec .carrierLost s = .next (down.sending []))
    ∧ (s.ring.link = .acquiring →
      exec .carrierLost s = .next (({ down with ring := { s.ring with link := .down } }).sending []))
    ∧ (s.ring.link = .up →
      let v := ({ down with ring := { s.ring with link := .down } }).logging .linkDown 0 0 0 0
      ∃ t, exec .carrierLost s = .next t
        ∧ (v.caused .link).handsOver (v.causeOrders ++ s.alertFor (v.caused .link)) t)

/-- The tests that make a message bad; a bad one is counted and goes no further; the eighth in a row ends UP (R147, R148;
that no other test is made of a cut-off message, so that one whose bytes are whole is no bad one, is log 29; the row
CONSECUTIVE_BAD_LIMIT carries the message that brings the limit about, log 5). -/
def Obligations.BadMessagesJudgedAndCounted : Prop :=
  (∀ bytes : List Byte,
    decode bytes = none ↔
      bytes.length < 7 ∨ 56 < natAt1 bytes 4 ∨ bytes.length ≠ 7 + natAt1 bytes 4
        ∨ wordAt bytes (bytes.length - 2) ≠ crc (bytes.take (bytes.length - 2))
        ∨ 63 < natAt1 bytes 0 ∨ 62 < natAt1 bytes 1)
  ∧ ∀ (bytes : List Byte) (c : Instr) (s : State), s.phase = .running → decode bytes = none →
    (c = .badMessage bytes ∨ c = .consecutiveBadLimit bytes) →
    let r :=
      { s.ring with
        linkErrors := min 65535 (s.ring.linkErrors + 1)
        consecBad := min 8 (s.ring.consecBad + 1) }
    (¬ (s.ring.link = .up ∧ 7 ≤ s.ring.consecBad) → exec c s = .next (({ s with ring := r }).sending []))
    ∧ (s.ring.link = .up → 7 ≤ s.ring.consecBad →
      let v := ({ s with ring := { r with link := .acquiring } }).logging .linkDown 0 0 0 1
      ∃ t, exec c s = .next t ∧ (v.caused .link).handsOver (v.causeOrders ++ s.alertFor (v.caused .link)) t)

/-- A message sent on the ring is received as it was sent, and bytes are received as a message only if they are that
message as it travels: header, payload and CRC, the CRC by x^16 + x^12 + x^5 + 1 from 0xFFFF, most significant bit first
(R145, R146, R147). -/
def Obligations.WireRoundTrip : Prop :=
  (∀ m : Message, goodMessage m = true → decode (encode m) = some m)
  ∧ (∀ (bytes : List Byte) (m : Message), decode bytes = some m → encode m = bytes)
  ∧ (∀ m : Message,
    let body := [m.dst, m.src, m.kind, m.tag, BitVec.ofNat 8 m.payload.length] ++ m.payload
    encode m = body ++ bytes2 (crc body))
  ∧ crc [] = 0xFFFF
  ∧ ∀ (bytes : List Byte) (b : Byte),
    crc (bytes ++ [b]) = [7, 6, 5, 4, 3, 2, 1, 0].foldl
      (fun (r : Word) (i : Nat) => if r.getLsbD 15 = b.getLsbD i then r <<< 1 else (r <<< 1) ^^^ 0x1021) (crc bytes)

/-- A good message for another node, or a broadcast of a kind that is not taken, joins the forward buffer unchanged, or
is dropped and counted when that is full, whichever command carries it (R149, R153; when a message leaves the forward
buffer: log 27). -/
def Obligations.ForwardedMessages : Prop :=
  ∀ (c : Instr) (m : Message) (s : State), carried c = some m → s.hears m → m.dst ≠ s.ring.ownNode →
    ¬ (m.dst = 63 ∧ (m.kind = 1 ∨ m.kind = 2 ∨ m.kind = 3 ∨ m.kind = 4)) →
    let a := (s.withPinsOf c).arrived
    s.completes c { a with ring := a.ring.passingOn m } []

/-- Messages consumed without effect: requests and unknown kinds from another source than node 0, a MARK from another
source or of another length than 2, and the kinds only the part itself sends (R13, R129, R150). -/
def Obligations.ForeignMessagesIgnored : Prop :=
  ∀ (c : Instr) (m : Message) (s : State), carried c = some m → s.hears m → m.dst = s.ring.ownNode →
    ((m.src ≠ 0 ∧ (m.kind = 0x20 ∨ m.kind = 0x21 ∨ m.kind = 0x22 ∨ Kind.ofCode m.kind = none))
      ∨ (m.kind = 4 ∧ (m.src ≠ 0 ∨ m.payload.length ≠ 2))
      ∨ m.kind = 0x08 ∨ m.kind = 0x10 ∨ m.kind = 0x11 ∨ m.kind = 0x12 ∨ m.kind = 0x13 ∨ m.kind = 0x28
      ∨ m.kind = 0x29 ∨ m.kind = 0x30) →
    s.completes c (s.withPinsOf c).arrived []

/-- A message of node 0 whose kind is in no table is answered UNKNOWN (R150). -/
def Obligations.UnknownKindAnswered : Prop :=
  ∀ (m : Message) (s : State), s.hears m → m.dst = s.ring.ownNode → m.src = 0 → Kind.ofCode m.kind = none →
    ∃ t, exec (.unknownKind m) s = .next t
      ∧ s.arrived.handsOver (⟨0, s.ring.ownNode, 0x28, m.tag, [1, 0]⟩ :: s.alertFor s.arrived) t

/-- An own order that has come round the ring logs and raises NO_TAKER; an own message of any other kind but PROOF is
discarded (R149, R151). -/
def Obligations.StrippedMessages : Prop :=
  ∀ (m : Message) (s : State), s.phase = .running → goodMessage m = true →
    (m.src = s.ring.ownNode ∨ some m.src = s.ring.formerNode) →
    ((m.kind = 0x10 ∨ m.kind = 0x11 ∨ m.kind = 0x12 ∨ m.kind = 0x13) →
      let v := s.arrived.logging .noTaker 0 0 0 (BitVec.ofNat 16 (256 * m.kind.toNat + m.dst.toNat))
      ∃ t, exec (.strippedOrder m) s = .next t
        ∧ (v.caused .noTaker).handsOver (v.causeOrders ++ s.alertFor (v.caused .noTaker)) t)
    ∧ (¬ (m.kind = 0x10 ∨ m.kind = 0x11 ∨ m.kind = 0x12 ∨ m.kind = 0x13 ∨ m.kind = 0x30) →
      ∃ t, exec (.strippedOrder m) s = .next t ∧ s.arrived.handsOver (s.alertFor s.arrived) t)

/-- When it finishes a message the transmitter begins the oldest message to be forwarded, else the head of the outbound
queue, else it sends idle (R153; that a forwarded message leaves the buffer as its sending begins is log 27); the end of
an own PROOF 15 starts the proof timer (R157). So it does when it is idle at the end of an event (log 9). -/
def Obligations.TransmitterChoosesNext : Prop :=
  (∀ (s : State) (ms : List Message),
    let waiting := s.ring.outbound ++ ms
    (s.ring.tx ≠ .idle → s.sending ms = { s with ring := { s.ring with outbound := waiting } })
    ∧ (s.ring.tx = .idle →
      (∀ f fs, s.ring.forward = f :: fs →
        s.sending ms = { s with ring := { s.ring with outbound := waiting, forward := fs, tx := .forwarding f } })
      ∧ (∀ q qs, s.ring.forward = [] → waiting = q :: qs →
        s.sending ms = { s with ring := { s.ring with outbound := qs, tx := .own q } })
      ∧ (s.ring.forward = [] → waiting = [] → s.sending ms = s)))
  ∧ ∀ s : State, s.phase = .running → s.ring.tx ≠ .idle →
    let r :=
      match s.ring.tx with
      | .own m =>
        if m.kind = 0x30 ∧ m.tag = 15 then
          { s.ring with proofRun := s.ring.proofRun.map fun p : ProofRun => { p with timer := true } }
        else s.ring
      | _ => s.ring
    (∀ f fs, s.ring.forward = f :: fs →
      exec .transmitComplete s = .next { s with ring := { r with forward := fs, tx := .forwarding f } })
    ∧ (∀ q qs, s.ring.forward = [] → s.ring.outbound = q :: qs →
      exec .transmitComplete s = .next { s with ring := { r with outbound := qs, tx := .own q } })
    ∧ (s.ring.forward = [] → s.ring.outbound = [] →
      exec .transmitComplete s = .next { s with ring := { r with tx := .idle } })

/-- A message handed to a full outbound queue is dropped, OUTBOUND_FULL is logged and raised, and a dropped PROOF 15
starts the proof timer; with room it joins at the tail (R154, R157). So an event that finds the queue full keeps every
other effect and drops every message: the REPLY of a DISARM, the REPLY and FEED orders of a HALT, the order of a jacket
CYCLE with nothing to serve, the ALERT of a malformed SIGHT (R52, R59, R132, R166; the order of messages that a drop
brings about is logs 10 and 11). -/
def Obligations.FullOutboundQueueDrops : Prop :=
  (∀ (m : Message) (e : Ev),
    (e.s.ring.outbound.length < 32 →
      (hand m e).s = { e.s with ring := { e.s.ring with outbound := e.s.ring.outbound ++ [m] } }
      ∧ (hand m e).feeds = e.feeds)
    ∧ (32 ≤ e.s.ring.outbound.length →
      let r :=
        if m.kind = 0x30 ∧ m.tag = 15 then
          { e.s.ring with proofRun := e.s.ring.proofRun.map fun p : ProofRun => { p with timer := true } }
        else e.s.ring
      let full : State := { e.s with ring := r }
      let v := full.logging .outboundFull 0 0 0 (BitVec.ofNat 16 (256 * m.kind.toNat + m.dst.toNat))
      (hand m e).s = v.caused .outboundFull
      ∧ (hand m e).feeds = e.feeds ++
        (if e.s.rc.state = .run then [(.block, .pause), (.caseFeeder, .pause), (.jacket, .pause)] else [])))
  ∧ ∀ (h : Envelope) (arg : Byte) (s : State), 32 ≤ s.ring.outbound.length →
    (s.obeys h →
      let a := s.arrived
      let u := { a with titles := { a.titles with armed := false } }
      let v := a.caused .master
      exec (.disarm h [arg]) s = .next (s.turningAway u [u.okReply h.tag])
      ∧ (a.rc.state = .run ∨ a.rc.state = .drain →
        exec (.halt h [arg]) s = .next (s.turningAway v (v.okReply h.tag :: a.causeOrders))))
    ∧ (∀ n : Word, s.takes (h.message 0x02 (9 :: bytes2 n ++ [0])) →
      let x := s.heard (h.message 0x02 (9 :: bytes2 n ++ [0]))
      x.rc.state ≠ .config → x.plays h.src 9 → x.queues.aq = [] → x.queues.jq = [] →
      follows x.cycles.lastJacket n = true →
      let u := { x with cycles := { x.cycles with lastJacket := some n } }
      exec (.jacketCycle h (9 :: bytes2 n ++ [0])) s = .next (s.turningAway u
        [⟨x.lineMap.role 9, x.ring.ownNode, 0x13, 0, bytes2 n ++ [0, 0, 0, 0, 0, 0, 0]⟩]))
    ∧ (s.takes (h.message 0x01 []) →
      let x := s.heard (h.message 0x01 [])
      x.rc.state ≠ .config →
      exec (.blockSight h []) s = .next (s.turningAway (x.logging .badSighting 0 0 0 1) []))

/-! ### Requests to Run Control -/

/-- START: its preconditions in order, and the effects of an accepted one (R130, R131, R15, R51, R57). That a START which
arrives while the link is ACQUIRING finds it UP is log 8. -/
def Obligations.StartRun : Prop :=
  ∀ (h : Envelope) (arg : Byte) (s : State), s.obeys h →
    let a := s.arrived
    let complete := ∀ r, a.lineMap.get r ≠ 0
    let hasTitle := ∃ i, (a.titles.activeBank.get i).key ≠ 0
    (a.rc.state ≠ .config ∨ a.ring.proofRun ≠ none → s.onlyAnswers (.start h [arg]) h.tag .state .none)
    ∧ (a.rc.state = .config → a.ring.proofRun = none →
      (a.ccu.valid = false → s.onlyAnswers (.start h [arg]) h.tag .refused .calMissing)
      ∧ (a.ccu.valid = true → ¬ complete → s.onlyAnswers (.start h [arg]) h.tag .refused .mapIncomplete)
      ∧ (a.ccu.valid = true → complete → ¬ hasTitle → s.onlyAnswers (.start h [arg]) h.tag .refused .tableEmpty)
      ∧ (a.ccu.valid = true → complete → hasTitle → a.ring.proofResult = .fail →
        s.onlyAnswers (.start h [arg]) h.tag .refused .proofFailed)
      ∧ (a.ccu.valid = true → complete → hasTitle → a.ring.proofResult ≠ .fail → a.ring.link ≠ .up →
        s.onlyAnswers (.start h [arg]) h.tag .refused .linkDown)
      ∧ (a.ccu.valid = true → complete → hasTitle → a.ring.proofResult ≠ .fail → a.ring.link = .up →
        let u := ({ a with
          dose := { a.dose with carries := Table.fill 64 0 }
          titles := { a.titles with proofLeft := a.titles.activeBank.map TitleRecord.proofCount }
          cycles := ⟨none, none, none, a.cycles.stamp⟩ }).enteringRun
        s.completes (.start h [arg]) u (u.okReply h.tag :: u.lastOrders)))

/-- HALT and RESUME (R135, R136). That a RESUME which arrives while the link is ACQUIRING finds it UP is log 8. -/
def Obligations.HaltAndResume : Prop :=
  ∀ (h : Envelope) (arg : Byte) (s : State), s.obeys h →
    let a := s.arrived
    (a.rc.state = .run ∨ a.rc.state = .drain →
      let u := a.caused .master
      s.completes (.halt h [arg]) u (u.okReply h.tag :: a.causeOrders)
        ∧ u.rc = ⟨.halt, ⟨true, false, false, false, false, false⟩, .low⟩)
    ∧ (a.rc.state = .config ∨ a.rc.state = .halt → s.onlyAnswers (.halt h [arg]) h.tag .state .none)
    ∧ (a.rc.state ≠ .halt → s.onlyAnswers (.resume h [arg]) h.tag .state .none)
    ∧ (a.rc.state = .halt → a.rc.causes.link = true → a.ring.link ≠ .up →
      s.onlyAnswers (.resume h [arg]) h.tag .refused .causePersists)
    ∧ (a.rc.state = .halt → (a.rc.causes.link = false ∨ a.ring.link = .up) → 16 < a.ring.outbound.length →
      s.onlyAnswers (.resume h [arg]) h.tag .busy .none)
    ∧ (a.rc.state = .halt → (a.rc.causes.link = false ∨ a.ring.link = .up) → a.ring.outbound.length ≤ 16 →
      let u := a.enteringRun
      s.completes (.resume h [arg]) u (u.okReply h.tag :: u.lastOrders))

/-- DRAIN: refused in order, accepted from RUN or HALT, and complete at once when nothing is held in BQ, TQ, PT and AQ
(R137, R138). That a DRAIN which arrives while the link is ACQUIRING finds it UP is log 8; that the row DRAIN_COMPLETE
carries the message that completes a drain is log 5. -/
def Obligations.DrainAccepted : Prop :=
  ∀ (h : Envelope) (arg : Byte) (s : State), s.obeys h →
    let a := s.arrived
    let rc : RunControl := ⟨.drain, CauseSet.empty, .released⟩
    let mayLeave := a.rc.state = .halt ∧ (a.rc.causes.link = false ∨ a.ring.link = .up) ∧ a.ring.outbound.length ≤ 16
    let empty := a.queues.bq = [] ∧ a.queues.tq = [] ∧ a.queues.pt = ⟨none, none, none, none, none, none⟩ ∧ a.queues.aq = []
    (a.rc.state = .config ∨ a.rc.state = .drain → s.onlyAnswers (.drain h [arg]) h.tag .state .none)
    ∧ (a.rc.state = .halt → a.rc.causes.link = true → a.ring.link ≠ .up →
      s.onlyAnswers (.drain h [arg]) h.tag .refused .causePersists)
    ∧ (a.rc.state = .halt → (a.rc.causes.link = false ∨ a.ring.link = .up) → 16 < a.ring.outbound.length →
      s.onlyAnswers (.drain h [arg]) h.tag .busy .none)
    ∧ (a.rc.state = .run → ¬ empty →
      let u := { a with rc := rc, feed := ⟨.pause, .pause, .pause⟩ }
      s.completes (.drain h [arg]) u (u.okReply h.tag :: u.pauseOrders))
    ∧ (mayLeave → ¬ empty →
      let u := { a with rc := rc }
      s.completes (.drain h [arg]) u [u.okReply h.tag])
    ∧ (a.rc.state = .run → empty → a.ring.outbound.length < 32 →
      let u := ({ a with feed := ⟨.pause, .pause, .pause⟩ }).drainedOut
      s.completes (.drain h [arg]) u (u.okReply h.tag :: a.leftovers.map (tallyMessage u) ++ u.pauseOrders))
    ∧ (mayLeave → empty → a.feed = ⟨.pause, .pause, .pause⟩ →
      let u := a.drainedOut
      s.completes (.drain h [arg]) u (u.okReply h.tag :: a.leftovers.map (tallyMessage u)))
    ∧ exec (.drainComplete (h.message 0x20 [4, arg])) s = exec (.drain h [arg]) s

/-- ABORT and PURGE in HALT, the last levels sent being PAUSE as always there: the collections emptied with PURGED
tallies, each answered and logged (R139, R140). -/
def Obligations.WorkDiscarded : Prop :=
  (∀ q : Queues,
    q.clear .bq = { q with bq := [] } ∧ q.clear .cq = { q with cq := [] } ∧ q.clear .jq = { q with jq := [] }
      ∧ q.clear .tq = { q with tq := [] } ∧ q.clear .pt = { q with pt := ⟨none, none, none, none, none, none⟩ }
      ∧ q.clear .aq = { q with aq := [] })
  ∧ ∀ (h : Envelope) (arg : Byte) (s : State), s.obeys h →
    let a := s.arrived
    (a.rc.state ≠ .halt → s.onlyAnswers (.abort h [arg]) h.tag .state .none)
    ∧ (a.rc.state = .halt → a.feed = ⟨.pause, .pause, .pause⟩ →
      let ys := a.queues.purgeTallies .bq ++ a.queues.purgeTallies .cq ++ a.queues.purgeTallies .jq
        ++ a.queues.purgeTallies .tq ++ a.queues.purgeTallies .pt ++ a.queues.purgeTallies .aq
      let v := { a with
        queues := ⟨[], [], [], [], ⟨none, none, none, none, none, none⟩, []⟩
        totals := a.totals.talliedAll ys }
      let u := { v.logging .purged 0 0 0 (BitVec.ofNat 16 ys.length) with rc := ⟨.config, CauseSet.empty, .released⟩ }
      s.completes (.abort h [arg]) u (u.okReply h.tag :: ys.map (tallyMessage u)))
    ∧ (arg.toNat = 0 ∨ 6 < arg.toNat → s.onlyAnswers (.purge h [arg]) h.tag .range .none)
    ∧ (∀ c : Collection, arg.toNat = c.code →
      (a.rc.state ≠ .halt → s.onlyAnswers (.purge h [arg]) h.tag .state .none)
      ∧ (a.rc.state = .halt → a.feed = ⟨.pause, .pause, .pause⟩ →
        let ys := a.queues.purgeTallies c
        let u := ({ a with queues := a.queues.clear c, totals := a.totals.talliedAll ys }).logging .purged 0 0 0
          (BitVec.ofNat 16 (256 * arg.toNat + ys.length))
        s.completes (.purge h [arg]) u (u.okReply h.tag :: ys.map (tallyMessage u))))

/-- The fields of PURGED tallies, from the head or from position 1 (R122, R75). -/
def Obligations.PurgeTallyFields : Prop :=
  ∀ (q : Queues) (b : BlockEntry) (c : CaseEntry) (j : JacketEntry) (r : BookRecord),
    q.purgeTallies .bq = q.bq.flatMap (fun b => Queues.purgeTallies { q with bq := [b] } .bq)
    ∧ q.purgeTallies .cq = q.cq.flatMap (fun c => Queues.purgeTallies { q with cq := [c] } .cq)
    ∧ q.purgeTallies .jq = q.jq.flatMap (fun j => Queues.purgeTallies { q with jq := [j] } .jq)
    ∧ q.purgeTallies .tq = q.tq.flatMap (fun r => Queues.purgeTallies { q with tq := [r] } .tq)
    ∧ q.purgeTallies .aq = q.aq.flatMap (fun r => Queues.purgeTallies { q with aq := [r] } .aq)
    ∧ q.purgeTallies .pt =
      ([q.pt.p1, q.pt.p2, q.pt.p3, q.pt.p4, q.pt.p5, q.pt.p6].filterMap id).flatMap
        (fun r => Queues.purgeTallies { q with aq := [r] } .aq)
    ∧ (∃ y, Queues.purgeTallies { q with bq := [b] } .bq = [y] ∧ y.item = .block ∧ y.serial = b.serial
      ∧ y.key = (if b.title = none then 0 else b.key) ∧ y.route = .purged ∧ y.stage = .queue
      ∧ y.thickness = b.thickness
      ∧ (∀ x, x ∈ y.reasons ↔ (x = .unknownTitle ∧ b.title = none) ∨ (x = .offCaliper ∧ b.offCaliper = true)
        ∨ (x = .caliperClamped ∧ b.clamped = true)))
    ∧ Queues.purgeTallies { q with cq := [c] } .cq = [⟨.caseItem, c.serial, 0, .purged, .queue, [], 0⟩]
    ∧ Queues.purgeTallies { q with jq := [j] } .jq = [⟨.jacket, j.serial, 0, .purged, .queue, [], 0⟩]
    ∧ Queues.purgeTallies { q with tq := [r] } .tq = Queues.purgeTallies { q with aq := [r] } .aq
    ∧ (∃ y, Queues.purgeTallies { q with aq := [r] } .aq = [y] ∧ y.item = .block ∧ y.serial = r.serial
      ∧ y.key = r.key ∧ y.route = .purged ∧ y.stage = .queue ∧ y.thickness = r.thickness
      ∧ (∀ x, x ∈ y.reasons ↔ (x = .doseClamped ∧ r.flags.doseClamped = true)
        ∨ (x = .heatSuspect ∧ r.flags.heatSuspect = true) ∨ (x = .untracked ∧ r.flags.untracked = true)))

/-- CLEAR (R141). -/
def Obligations.ClearZeroesTotals : Prop :=
  ∀ (h : Envelope) (arg : Byte) (s : State), s.obeys h →
    let a := s.arrived
    let u := { a with
      totals := ⟨⟨0, 0, 0, 0, 0, 0, 0⟩, ⟨0, 0, 0, 0, 0, 0, 0⟩, ⟨0, 0, 0, 0, 0, 0, 0⟩⟩
      ring := { a.ring with linkErrors := 0 } }
    s.completes (.clear h [arg]) u [u.okReply h.tag]

/-- RESET: the line reset, its REPLY alone at the head of the outbound queue with FEED PAUSE behind it (R142, R143, R18,
R36, R54, R78, R94, R106, R158, R168). -/
def Obligations.LineResetKeepsSettings : Prop :=
  ∀ (h : Envelope) (arg : Byte) (s : State), s.obeys h →
    let a := s.arrived
    let u := { a with
      ring := { a.ring with outbound := [a.okReply h.tag], proofRun := none, proofResult := .none }
      titles := { a.titles with armed := false, proofLeft := Table.fill 512 0 }
      dose := { a.dose with carries := Table.fill 64 0 }
      queues := ⟨[], [], [], [], ⟨none, none, none, none, none, none⟩, []⟩
      cycles := ⟨none, none, none, 0⟩
      feed := ⟨.pause, .pause, .pause⟩
      totals := ⟨⟨0, 0, 0, 0, 0, 0, 0⟩, ⟨0, 0, 0, 0, 0, 0, 0⟩, ⟨0, 0, 0, 0, 0, 0, 0⟩⟩
      iron := ⟨a.iron.comparators.map fun c : Comparator => ⟨c.config, false, 0⟩, ⟨.stale, 0⟩, ⟨.stale, 0⟩⟩
      rc := ⟨.config, CauseSet.empty, .released⟩
      mu := ⟨[], false, .low⟩ }
    exec (.reset h [arg]) s = .next (u.sending u.pauseOrders)

/-- ARM, DISARM and COPY; `b` is the standby bank as it would stand after the copy (R10, R11, R12). -/
def Obligations.ChangeoverRequests : Prop :=
  ∀ (h : Envelope) (arg : Byte) (s : State), s.obeys h →
    let a := s.arrived
    ((∃ i, (a.titles.standbyBank.get i).key ≠ 0) →
      let u := { a with titles := { a.titles with armed := true } }
      s.completes (.arm h [arg]) u [u.okReply h.tag])
    ∧ ((∀ i, (a.titles.standbyBank.get i).key = 0) → s.onlyAnswers (.arm h [arg]) h.tag .refused .tableEmpty)
    ∧ (let u := { a with titles := { a.titles with armed := false } }
      s.completes (.disarm h [arg]) u [u.okReply h.tag])
    ∧ ∀ b : Bank,
      (∀ i, b.get i = if i.val < firstProtected a.titles.protect then a.titles.activeBank.get i
        else a.titles.standbyBank.get i) →
      (Bank.unique b →
        let u := { a with titles := a.titles.setStandby b }
        s.completes (.copy h [arg]) u [u.okReply h.tag])
      ∧ (¬ Bank.unique b → s.onlyAnswers (.copy h [arg]) h.tag .duplicate .none)

/-- STORE takes a snapshot and erases every marker; its end writes all seven groups from the snapshot (R172, R173). In
HALT or DRAIN with a STORE in flight the answer is BUSY (log 28), and without a STORE in flight its end does nothing
(log 4). -/
def Obligations.StoreTakesSnapshot : Prop :=
  ∀ (h : Envelope) (arg : Byte) (s : State),
    (s.obeys h →
      let a := s.arrived
      (a.store.op ≠ .idle → s.onlyAnswers (.store h [arg]) h.tag .busy .none)
      ∧ (a.store.op = .idle → (a.rc.state = .halt ∨ a.rc.state = .drain) →
        s.onlyAnswers (.store h [arg]) h.tag .state .none)
      ∧ (a.store.op = .idle → (a.rc.state = .config ∨ a.rc.state = .run) →
        let snapshot : Settings :=
          ⟨a.ring.ownNode, a.ccu,
            a.iron.comparators.map fun c : Comparator =>
              ⟨if c.config.direction = .above then 0 else 1, if c.config.enable then 1 else 0, c.config.confirm,
                c.config.onThreshold, c.config.offThreshold⟩,
            a.limits, a.lineMap,
            ⟨a.dose.recipes, a.profiles.map fun p : Profile =>
              let e := fun x : ProfileEntry => (⟨x.pressure, if x.heat then 1 else 0⟩ : EntryRecord)
              ⟨e p.e1, e p.e2, e p.e3, e p.e4, e p.e5, e p.e6⟩⟩,
            BitVec.ofNat 8 a.titles.protect.val⟩
        let g := a.store
        let u := { a with store :=
          ⟨{ g.node with marker := false }, { g.caliper with marker := false }, { g.comparators with marker := false },
            { g.limits with marker := false }, { g.lineMap with marker := false }, { g.recipes with marker := false },
            { g.protect with marker := false }, .inFlight snapshot⟩ }
        s.completes (.store h [arg]) u [u.okReply h.tag]))
    ∧ (s.phase = .running → ∀ w, s.store.op = .inFlight w →
      let u := ({ s with store :=
        ⟨⟨true, w.node, .clean⟩, ⟨true, w.caliper, .clean⟩, ⟨true, w.comparators, .clean⟩, ⟨true, w.limits, .clean⟩,
          ⟨true, w.lineMap, .clean⟩, ⟨true, w.recipes, .clean⟩, ⟨true, w.protect, .clean⟩, .idle⟩ }).logging
            .storeDone 0 0 0 7
      s.completes .storeDone u [])
    ∧ (s.phase = .running → s.store.op = .idle → exec .storeDone s = .next (s.sending []))

/-- PROOF: refused in order, or answered and followed by its sixteen messages (R156). That a PROOF which arrives while the
link is ACQUIRING finds it UP is log 8. -/
def Obligations.ProofRunBegins : Prop :=
  ∀ (h : Envelope) (arg : Byte) (s : State), s.obeys h →
    let a := s.arrived
    (a.ring.proofRun ≠ none → s.onlyAnswers (.proof h [arg]) h.tag .busy .none)
    ∧ (a.ring.proofRun = none → a.rc.state ≠ .config → s.onlyAnswers (.proof h [arg]) h.tag .state .none)
    ∧ (a.ring.proofRun = none → a.rc.state = .config → a.ring.link ≠ .up →
      s.onlyAnswers (.proof h [arg]) h.tag .refused .linkDown)
    ∧ (a.ring.proofRun = none → a.rc.state = .config → a.ring.link = .up →
      let u := { a with ring := { a.ring with proofRun := some ⟨Table.fill 16 false, false⟩ } }
      s.completes (.proof h [arg]) u
        (u.okReply h.tag :: (List.range 16).map fun i =>
          ⟨a.ring.ownNode, a.ring.ownNode, 0x30, BitVec.ofNat 8 i,
            BitVec.ofNat 8 i :: (List.range 32).map fun j => BitVec.ofNat 8 (i * 17 + j)⟩))

/-- A returning PROOF message is compared, index 15 or the timer ends the run (R157); after the run it is discarded
(R151). A timer that has not started does not end one (log 4). -/
def Obligations.ProofRunEnds : Prop :=
  ∀ (h : Envelope) (p : List Byte) (s : State), s.phase = .running →
    (goodMessage (h.message 0x30 p) = true → (h.src = s.ring.ownNode ∨ some h.src = s.ring.formerNode) →
      let a := s.arrived
      let intact := p.length = 33 ∧ natAt1 p 0 ≤ 15 ∧ byteAt p 0 = h.tag
        ∧ ∀ j, j < 32 → byteAt p (j + 1) = BitVec.ofNat 8 (natAt1 p 0 * 17 + j)
      (a.ring.proofRun = none → s.completes (.proofReturn h p) a [])
      ∧ ∀ run r : ProofRun, a.ring.proofRun = some run →
        (intact → r = { run with intact := run.intact.set (Fin.ofNat 16 (natAt1 p 0)) true }) →
        (¬ intact → r = run) →
        (¬ (p ≠ [] ∧ natAt1 p 0 = 15) →
          s.completes (.proofReturn h p) { a with ring := { a.ring with proofRun := some r } } [])
        ∧ (p ≠ [] → natAt1 p 0 = 15 → s.completes (.proofReturn h p) (a.proofEnded r) []))
    ∧ (∀ run, s.ring.proofRun = some run → run.timer = true → s.completes .proofTimeout (s.proofEnded run) [])
    ∧ ((s.ring.proofRun = none ∨ ∃ run, s.ring.proofRun = some run ∧ run.timer = false) →
      exec .proofTimeout s = .next (s.sending []))

/-- A CTRL of another length than 2 is answered LENGTH, one whose code is in no table UNKNOWN (R129). -/
def Obligations.MalformedRequestsAnswered : Prop :=
  ∀ (h : Envelope) (c : Instr) (p : List Byte) (s : State), s.obeys h → carried c = some (h.message 0x20 p) →
    p.length ≤ 56 →
    (p.length ≠ 2 → s.onlyAnswers c h.tag .length .none)
    ∧ (p.length = 2 → (∀ r : Request, r.code ≠ byteAt p 0) → s.onlyAnswers c h.tag .unknown .none)

/-! ### Management requests -/

/-- LIMITS and CALIBRATION writes: checks in order, then every field replaced (R20, R49, R61, R102, R159). -/
def Obligations.LimitsAndCalibrationWritten : Prop :=
  ∀ (h : Envelope) (rest : List Byte) (s : State), s.obeys h → 3 ≤ rest.length → rest.length ≤ 55 →
    let a := s.arrived
    let n := natAt2 rest 0
    let k := natAt1 rest 2
    let v := rest.drop 3
    let l : Limits :=
      ⟨natAt1 v 0, natAt1 v 1, natAt1 v 2, natAt1 v 3, natAt1 v 4, natAt1 v 5, natAt1 v 6, natAt1 v 7, natAt1 v 8,
        natAt1 v 9, natAt1 v 10, natAt1 v 11, natAt1 v 12⟩
    let lRange := n = 0 ∧ (l.bqLow < l.bqHigh ∧ l.bqHigh ≤ 24) ∧ (l.cqLow < l.cqHigh ∧ l.cqHigh ≤ 16)
      ∧ (l.jqLow < l.jqHigh ∧ l.jqHigh ≤ 16) ∧ l.caseWindow ≤ 4 ∧ l.jacketWindow ≤ 4 ∧ 1 ≤ l.casingWait
      ∧ 1 ≤ l.pressWait ∧ 1 ≤ l.jacketWait ∧ (1 ≤ l.fitFail ∧ l.fitFail ≤ 3) ∧ 1 ≤ l.stale
    let c : Calibration :=
      ⟨intAt2 v 0, natAt2 v 2, natAt2 v 4, natAt2 v 6, natAt2 v 8, intAt2 v 10, intAt2 v 12⟩
    let cRange := n = 0 ∧ (-2048 ≤ c.ofs ∧ c.ofs ≤ 2047) ∧ c.brk ≤ 16383 ∧ 1 ≤ c.g1 ∧ 1 ≤ c.g2 ∧ c.tref ≤ 4095
    (¬ (k = 1 ∧ v.length = 13) → s.refusesWrite (.limitsWrite h rest) h .length .limits rest)
    ∧ (k = 1 → v.length = 13 → ¬ lRange → s.refusesWrite (.limitsWrite h rest) h .range .limits rest)
    ∧ (k = 1 → v.length = 13 → lRange → a.rc.state ≠ .config →
      s.refusesWrite (.limitsWrite h rest) h .state .limits rest)
    ∧ (k = 1 → v.length = 13 → lRange → a.rc.state = .config →
      s.acceptsWrite (.limitsWrite h rest) h .limits rest { a with limits := l })
    ∧ (¬ (k = 1 ∧ v.length = 14) → s.refusesWrite (.calibrationWrite h rest) h .length .calibration rest)
    ∧ (k = 1 → v.length = 14 → ¬ cRange → s.refusesWrite (.calibrationWrite h rest) h .range .calibration rest)
    ∧ (k = 1 → v.length = 14 → cRange → a.rc.state ≠ .config →
      s.refusesWrite (.calibrationWrite h rest) h .state .calibration rest)
    ∧ (k = 1 → v.length = 14 → cRange → a.rc.state = .config →
      s.acceptsWrite (.calibrationWrite h rest) h .calibration rest { a with ccu := ⟨c, true⟩ })

/-- LINEMAP writes: checks in order, then the addressed roles replaced and the others kept (R155). -/
def Obligations.LineMapWritten : Prop :=
  ∀ (h : Envelope) (rest : List Byte) (s : State), s.obeys h → 3 ≤ rest.length → rest.length ≤ 55 →
    let a := s.arrived
    let n := natAt2 rest 0
    let k := natAt1 rest 2
    let v := rest.drop 3
    let form := 1 ≤ k ∧ k ≤ 9 ∧ v.length = k
    let range := 1 ≤ n ∧ n ≤ 9 ∧ n + k ≤ 10
      ∧ ∀ x ∈ v, 1 ≤ x.toNat ∧ x.toNat ≤ 62 ∧ x ≠ a.ring.ownNode ∧ some x ≠ a.ring.formerNode
    (¬ form → s.refusesWrite (.linemapWrite h rest) h .length .linemap rest)
    ∧ (form → ¬ range → s.refusesWrite (.linemapWrite h rest) h .range .linemap rest)
    ∧ (form → range → a.rc.state ≠ .config → s.refusesWrite (.linemapWrite h rest) h .state .linemap rest)
    ∧ (form → range → a.rc.state = .config → ∀ m : LineMap,
      (∀ i : Fin 9, m.get i = if n ≤ i.val + 1 ∧ i.val + 1 < n + k then byteAt v (i.val + 1 - n) else a.lineMap.get i) →
      s.acceptsWrite (.linemapWrite h rest) h .linemap rest { a with lineMap := m })

/-- NODE writes, whose REPLY already carries the new node number (R152), and PROTECT writes, which need GUARD high (R9;
GUARD at that moment is the command's operand, log 13). -/
def Obligations.NodeAndProtectWritten : Prop :=
  ∀ (h : Envelope) (guard : Level) (rest : List Byte) (s : State), s.obeys h → 3 ≤ rest.length → rest.length ≤ 55 →
    let a := s.arrived
    let g := { a with pins := { a.pins with guard := guard } }
    let n := natAt2 rest 0
    let k := natAt1 rest 2
    let v := rest.drop 3
    let x := byteAt v 0
    let form := k = 1 ∧ v.length = 1
    let nodeRange := n = 0 ∧ 1 ≤ x.toNat ∧ x.toNat ≤ 62 ∧ ∀ i, a.lineMap.get i ≠ x
    let levelRange := n = 0 ∧ x.toNat ≤ 3
    (¬ form → s.refusesWrite (.nodeWrite h rest) h .length .node rest)
    ∧ (form → ¬ nodeRange → s.refusesWrite (.nodeWrite h rest) h .range .node rest)
    ∧ (form → nodeRange → a.rc.state ≠ .config → s.refusesWrite (.nodeWrite h rest) h .state .node rest)
    ∧ (form → nodeRange → a.rc.state = .config → a.ring.proofRun ≠ none →
      s.refusesWrite (.nodeWrite h rest) h .busy .node rest)
    ∧ (form → nodeRange → a.rc.state = .config → a.ring.proofRun = none →
      s.acceptsWrite (.nodeWrite h rest) h .node rest
        { a with ring := { a.ring with formerNode := some a.ring.ownNode, ownNode := x } })
    ∧ (¬ form → s.completes (.protectWrite h guard rest) g [g.writeReply h.tag .length .protect rest])
    ∧ (form → ¬ levelRange → s.completes (.protectWrite h guard rest) g [g.writeReply h.tag .range .protect rest])
    ∧ (form → levelRange → guard = .low →
      s.completes (.protectWrite h guard rest) g [g.writeReply h.tag .isProtected .protect rest])
    ∧ (form → levelRange → guard = .high →
      s.acceptsWrite (.protectWrite h guard rest) h .protect rest
        { g with titles := { g.titles with protect := Fin.ofNat 4 x.toNat } })

/-- TITLE writes: checks in order, then the addressed standby slots replaced, in every run state; `b` is the standby bank
as it would stand after the request (R2, R5, R6, R8). -/
def Obligations.TitlesWritten : Prop :=
  ∀ (h : Envelope) (rest : List Byte) (s : State), s.obeys h → 3 ≤ rest.length → rest.length ≤ 55 →
    let a := s.arrived
    let n := natAt2 rest 0
    let k := natAt1 rest 2
    let v := rest.drop 3
    let form := (k = 1 ∨ k = 2) ∧ v.length = 23 * k
    let range := n ≤ 511 ∧ ∀ d, d < k → titleInRange (recordAt 23 v d)
    let free := ∀ d, d < k → (n + d) % 512 < firstProtected a.titles.protect
    (¬ form → s.refusesWrite (.titleWrite h rest) h .length .title rest)
    ∧ (form → ¬ range → s.refusesWrite (.titleWrite h rest) h .range .title rest)
    ∧ (form → range → ¬ free → s.refusesWrite (.titleWrite h rest) h .isProtected .title rest)
    ∧ (form → range → free → ∀ b : Bank,
      (∀ j, b.get j = if behind 512 n j.val < k then titleOf (recordAt 23 v (behind 512 n j.val))
        else a.titles.standbyBank.get j) →
      (¬ Bank.unique b → s.refusesWrite (.titleWrite h rest) h .duplicate .title rest)
      ∧ (Bank.unique b →
        s.acceptsWrite (.titleWrite h rest) h .title rest { a with titles := a.titles.setStandby b }))

/-- DOSE and PROFILE writes: checks in order, then the addressed records replaced; a recipe written has both its carries
cleared (R30, R35, R88). -/
def Obligations.RecipesAndProfilesWritten : Prop :=
  ∀ (h : Envelope) (rest : List Byte) (s : State), s.obeys h → 3 ≤ rest.length → rest.length ≤ 55 →
    let a := s.arrived
    let n := natAt2 rest 0
    let k := natAt1 rest 2
    let v := rest.drop 3
    let doseForm := 1 ≤ k ∧ k ≤ 4 ∧ v.length = 7 * k
    let recipe := fun d =>
      let p := recordAt 7 v d
      (⟨natAt2 p 0, natAt2 p 2, natAt2 p 4, natAt1 p 6⟩ : Recipe)
    let doseRange := n ≤ 31 ∧ ∀ d, d < k →
      (recipe d).filmLeft ≤ 500 ∧ (recipe d).filmRight ≤ 500 ∧ 1 ≤ (recipe d).shot ∧ (recipe d).margin ≤ 200
    let profForm := 1 ≤ k ∧ k ≤ 4 ∧ v.length = 12 * k
    let profRange := n ≤ 63 ∧ ∀ d, d < k → ∀ j, j < 6 → natAt1 (recordAt 12 v d) (2 * j + 1) ≤ 1
    (¬ doseForm → s.refusesWrite (.doseWrite h rest) h .length .dose rest)
    ∧ (doseForm → ¬ doseRange → s.refusesWrite (.doseWrite h rest) h .range .dose rest)
    ∧ (doseForm → doseRange → a.rc.state ≠ .config → s.refusesWrite (.doseWrite h rest) h .state .dose rest)
    ∧ (doseForm → doseRange → a.rc.state = .config → ∀ u : DoseUnit,
      (∀ j, u.recipes.get j = if behind 32 n j.val < k then recipe (behind 32 n j.val) else a.dose.recipes.get j) →
      (∀ j, u.carries.get j = if behind 32 n (j.val / 2) < k then 0 else a.dose.carries.get j) →
      s.acceptsWrite (.doseWrite h rest) h .dose rest { a with dose := u })
    ∧ (¬ profForm → s.refusesWrite (.profileWrite h rest) h .length .profile rest)
    ∧ (profForm → ¬ profRange → s.refusesWrite (.profileWrite h rest) h .range .profile rest)
    ∧ (profForm → profRange → a.rc.state ≠ .config → s.refusesWrite (.profileWrite h rest) h .state .profile rest)
    ∧ (profForm → profRange → a.rc.state = .config → ∀ q : Table Profile 64,
      (∀ j, q.get j = if behind 64 n j.val < k then profileOfBytes (recordAt 12 v (behind 64 n j.val))
        else a.profiles.get j) →
      s.acceptsWrite (.profileWrite h rest) h .profile rest { a with profiles := q })

/-- COMPARATOR writes, in every run state: checks in order, then the addressed comparators replaced, OFF with tally 0, and
IRON_ALARM_OFF logged with 256 plus the index for each that was ON, in order of addressing (R103). -/
def Obligations.ComparatorsWritten : Prop :=
  ∀ (h : Envelope) (rest : List Byte) (s : State), s.obeys h → 3 ≤ rest.length → rest.length ≤ 55 →
    let a := s.arrived
    let n := natAt2 rest 0
    let k := natAt1 rest 2
    let v := rest.drop 3
    let form := 1 ≤ k ∧ k ≤ 4 ∧ v.length = 7 * k
    let range := n ≤ 3 ∧ ∀ d, d < k → comparatorInRange (recordAt 7 v d)
    (¬ form → s.refusesWrite (.comparatorWrite h rest) h .length .comparator rest)
    ∧ (form → ¬ range → s.refusesWrite (.comparatorWrite h rest) h .range .comparator rest)
    ∧ (form → range → ∀ q : Table Comparator 4,
      (∀ j, q.get j = if behind 4 n j.val < k then ⟨comparatorOf (recordAt 7 v (behind 4 n j.val)), false, 0⟩
        else a.iron.comparators.get j) →
      let w := { a with iron := { a.iron with comparators := q } }
      let u := (List.range k).foldl (fun x d =>
        x.loggingIf (a.iron.comparators.get (Fin.ofNat 4 (n + d))).on .ironAlarmOff 17 0 0
          (BitVec.ofNat 16 (256 + (n + d) % 4))) w
      s.acceptsWrite (.comparatorWrite h rest) h .comparator rest u)

/-- A WRITE or READ too short, to a region in no table, or a WRITE to a read-only region is only answered; fields the
request was too short to hold are given as 0 (R159, R160; log 18 for an index cut in two, log 6 for the row a READ is
carried by). -/
def Obligations.UnknownRegionsAnswered : Prop :=
  ∀ (h : Envelope) (p : List Byte) (s : State), s.obeys h → p.length ≤ 56 →
    let a := s.arrived
    let short : Message :=
      ⟨0, a.ring.ownNode, 0x28, h.tag,
        [2, byteAt p 0, if p.length = 3 then byteAt p 1 else 0, if p.length = 3 then byteAt p 2 else 0, 0]⟩
    let unknown : Message :=
      ⟨0, a.ring.ownNode, 0x28, h.tag, [1, byteAt p 0, byteAt p 1, byteAt p 2, byteAt p 3]⟩
    (p.length < 4 →
      s.completes (.writeUnknownRegion h p) a [short] ∧ s.completes (.alertsRead h p) a [short])
    ∧ (4 ≤ p.length → (∀ r : Region, r.code ≠ byteAt p 0) →
      s.completes (.writeUnknownRegion h p) a [unknown] ∧ s.completes (.alertsRead h p) a [unknown])
    ∧ (4 ≤ p.length → 0x10 ≤ natAt1 p 0 → natAt1 p 0 ≤ 0x14 → s.completes (.writeUnknownRegion h p) a [unknown])

/-- A READ of any region but ALERTS changes nothing and is answered by one REPLY that echoes its region and index: LENGTH,
then RANGE, without records, or OK with the records asked for as they stand, counted by the reply's count field (R7, R9,
R21, R31, R47, R61, R88, R93, R104, R152, R155, R159 to R164; a QUEUE READ that names no collection: log 19; the row a READ
is carried by: log 6). -/
def Obligations.ReadsChangeNothing : Prop :=
  ∀ (h : Envelope) (p : List Byte) (r : Region) (s : State), s.obeys h → 4 ≤ p.length → p.length ≤ 56 →
    byteAt p 0 = r.code → r ≠ .alerts →
    let a := s.arrived
    let n := natAt2 p 1
    let k := natAt1 p 3
    let answers := fun (st : Byte) (count : Byte) (records : List Byte) =>
      s.completes (.alertsRead h p) a
        [⟨0, a.ring.ownNode, 0x28, h.tag, [st, r.code, byteAt p 1, byteAt p 2, count] ++ records⟩]
    let form := p.length = 4 ∧ 1 ≤ k ∧ k ≤ r.mostRead n
    (¬ form → answers 2 (byteAt p 3) [])
    ∧ (form → ¬ r.readable n k → answers 3 (byteAt p 3) [])
    ∧ (form → r.readable n k →
      answers 0 (BitVec.ofNat 8 (a.recordsRead n k r).length) (a.recordsRead n k r).flatten
      ∧ (r ≠ .queue → (a.recordsRead n k r).length = k))

/-- A READ of ALERTS removes the oldest records and returns them; emptying the log lowers ATTN and clears the overrun
flag (R165, R166, R167). One that arrives while the link is ACQUIRING finds LINK_UP logged, and the ALERT which that
record forms in an empty log goes out behind the REPLY (log 25). -/
def Obligations.AlertsReadRemoves : Prop :=
  ∀ (h : Envelope) (p : List Byte) (s : State), s.obeys h → 4 ≤ p.length → p.length ≤ 56 → byteAt p 0 = 0x14 →
    let a := s.arrived
    let n := natAt2 p 1
    let k := natAt1 p 3
    let reply := fun (st : Byte) (count : Byte) (records : List Byte) =>
      (⟨0, a.ring.ownNode, 0x28, h.tag, [st, 0x14, byteAt p 1, byteAt p 2, count] ++ records⟩ : Message)
    let removes := fun (mu : Management) =>
      ∃ t, exec (.alertsRead h p) s = .next t
        ∧ ({ a with mu := mu }).handsOver
          (reply 0 (BitVec.ofNat 8 (min k a.mu.log.length)) (a.recordsRead n k .alerts).flatten :: s.alertFor a) t
    (p.length ≠ 4 ∨ k = 0 ∨ 3 < k → s.completes (.alertsRead h p) a [reply 2 (byteAt p 3) []])
    ∧ (p.length = 4 → 1 ≤ k → k ≤ 3 → n ≠ 0 → s.completes (.alertsRead h p) a [reply 3 (byteAt p 3) []])
    ∧ (p.length = 4 → 1 ≤ k → k ≤ 3 → n = 0 →
      (a.mu.log.length ≤ k → removes ⟨[], false, .low⟩)
      ∧ (k < a.mu.log.length → removes { a.mu with log := a.mu.log.drop k }))

/-- Logging an alert: the record, with the casing cycle stamp as it stands, joins the tail of a log of fewer than 32; at 32
it is discarded, the records held stay and the overrun flag is set; ATTN goes high and one ALERT is formed only when the
record joins an empty log (R60, R165, R166). So a malformed SIGHT logs its BAD_SIGHTING. -/
def Obligations.AlertsJoinTheLog : Prop :=
  (∀ (code : AlertCode) (stage : Byte) (serial : Serial) (key : TitleKey) (detail : Word) (e : Ev),
    let s := e.s
    let record : Alert := ⟨code, stage, serial, key, s.cycles.stamp, detail⟩
    let u := s.logging code stage serial key detail
    (logAlert code stage serial key detail e).s = u
    ∧ (s.mu.log = [] →
      u = { s with mu := { s.mu with log := [record], attn := .high } }
      ∧ s.alertFor u = [⟨0, s.ring.ownNode, 0x29, 0, [1]⟩]
      ∧ (logAlert code stage serial key detail e).alertsDue = e.alertsDue + 1)
    ∧ (s.mu.log ≠ [] → s.mu.log.length < 32 → u = { s with mu := { s.mu with log := s.mu.log ++ [record] } })
    ∧ (32 ≤ s.mu.log.length → u = { s with mu := { s.mu with overrun := true } })
    ∧ (s.mu.log ≠ [] → s.alertFor u = [] ∧ (logAlert code stage serial key detail e).alertsDue = e.alertsDue))
  ∧ ∀ (h : Envelope) (s : State), s.takes (h.message 0x01 []) → s.rc.state ≠ .config → s.ring.link ≠ .acquiring →
    s.ring.outbound.length < 32 →
    let record : Alert := ⟨.badSighting, 0, 0, 0, s.cycles.stamp, 1⟩
    ∃ t, exec (.blockSight h []) s = .next t
      ∧ (s.mu.log = [] → t.mu = { s.mu with log := [record], attn := .high })
      ∧ (s.mu.log ≠ [] → s.mu.log.length < 32 → t.mu = { s.mu with log := s.mu.log ++ [record] })
      ∧ (32 ≤ s.mu.log.length → t.mu = { s.mu with overrun := true })

/-! ### Titles, calibration and dose -/

/-- The key lookup (R3): key 0 and a key that no slot holds give none; a key held gives its slot and snapshot. The
proof-copy lookup takes the slot from it. -/
def Obligations.KeyLookupFindsSlot : Prop :=
  ∀ (t : TitleTable) (key : TitleKey),
    (key = 0 → t.lookup key = none ∧ t.slotOf key = none)
    ∧ ((∀ i, (t.activeBank.get i).key ≠ key) → t.lookup key = none ∧ t.slotOf key = none)
    ∧ ∀ i, Bank.unique t.activeBank → key ≠ 0 → (t.activeBank.get i).key = key →
      t.lookup key = some ⟨i, (t.activeBank.get i).data⟩ ∧ t.slotOf key = some i

/-- The corrected thickness, stage by stage; `corr` is the sum of the temperature terms divided by 65536 to nearest,
halves away from zero (R23, R24, R25, R26). -/
def Obligations.CaliperCorrection : Prop :=
  ∀ (c : Calibration) (rt tr : Nat) (corr : Int),
    let x : Int := max 0 (min 16383 ((min 16383 rt : Nat) - c.ofs))
    let u : Int := if x ≤ c.brk then x * c.g1 else c.brk * c.g1 + (x - c.brk) * c.g2
    let b : Int := (u + 2048) / 4096
    let dt : Int := (min 4095 tr : Nat) - c.tref
    let q : Int := dt * dt / 4096
    let sum : Int := c.tco * dt + c.tso * q
    (|sum - 65536 * corr| ≤ 32768 ∧ (|sum - 65536 * corr| = 32768 → |sum| < |65536 * corr|)) →
      ((correct c rt tr).thickness : Int) = max 0 (min 12000 (b + corr))
      ∧ ((correct c rt tr).clamped = true ↔ b + corr < 0 ∨ 12000 < b + corr)

/-- The tolerance and fit verdicts (R27, R28). -/
def Obligations.ToleranceAndFit : Prop :=
  ∀ (r : Corrected) (d : TitleData) (spine c : Nat),
    (r.inTolerance d = true ↔ r.clamped = false ∧ |(r.thickness : Int) - d.tn| ≤ d.tt)
    ∧ (fits d spine c = true ↔ (d.amin : Int) ≤ (spine : Int) - c ∧ (spine : Int) - c ≤ d.amax)

/-- The shots of a match and the carries after it; a carry stays below its recipe's shot size (R29, R32, R33, R34). -/
def Obligations.DoseShots : Prop :=
  ∀ (u : DoseUnit) (d : TitleData),
    let r := u.recipes.get d.recipe
    let area := (d.height - 2 * r.margin) * (d.width - r.margin)
    let side := fun (pasted : Bool) (film carry : Nat) (o : DoseSide) =>
      (pasted = false → o = ⟨0, carry, false⟩)
      ∧ (pasted = true → (area * film / 100 + carry) / r.shot ≤ 4095 →
        o = ⟨(area * film / 100 + carry) / r.shot, (area * film / 100 + carry) % r.shot, false⟩)
      ∧ (pasted = true → 4095 < (area * film / 100 + carry) / r.shot → o = ⟨4095, 0, true⟩)
    let left : Fin 64 := Fin.ofNat 64 (2 * d.recipe.val)
    let right : Fin 64 := Fin.ofNat 64 (2 * d.recipe.val + 1)
    side d.pasteLeft r.filmLeft (u.carries.get left) (u.dose d).left
    ∧ side d.pasteRight r.filmRight (u.carries.get right) (u.dose d).right
    ∧ (u.dose d).unit.recipes = u.recipes
    ∧ (u.dose d).unit.carries.get left = (u.dose d).left.carry
    ∧ (u.dose d).unit.carries.get right = (u.dose d).right.carry
    ∧ (∀ i, i ≠ left → i ≠ right → (u.dose d).unit.carries.get i = u.carries.get i)
    ∧ (1 ≤ r.shot → u.carries.get left < r.shot → (u.dose d).left.carry < r.shot)

/-- A MARK from node 0: its number recorded, every carry 0, the banks exchanged and the proof counts loaded when armed;
any other MARK taken has no effect (R13, R14, R15, R35). The indicator tells the active bank from the standby bank
(R1). -/
def Obligations.MarkSwapsBanks : Prop :=
  (∀ (t : TitleTable) (b : Bank),
    (t.active = .a → t.activeBank = t.bankA ∧ t.standbyBank = t.bankB ∧ t.active.other = .b
      ∧ t.setStandby b = { t with bankB := b })
    ∧ (t.active = .b → t.activeBank = t.bankB ∧ t.standbyBank = t.bankA ∧ t.active.other = .a
      ∧ t.setStandby b = { t with bankA := b }))
  ∧ ∀ (h : Envelope) (p : List Byte) (s : State), s.takes (h.message 0x04 p) →
    let x := s.heard (h.message 0x04 p)
    let dose := { x.dose with carries := Table.fill 64 0 }
    (h.src = 0 → p.length = 2 → x.titles.armed = false →
      s.completes (.mark h p) { x with dose := dose, titles := { x.titles with lastMark := wordAt p 0 } } [])
    ∧ (h.src = 0 → p.length = 2 → x.titles.armed = true → ∀ left : Table Nat 512,
      (∀ i, left.get i = (x.titles.standbyBank.get i).proofCount) →
      s.completes (.mark h p)
        (({ x with
          dose := dose
          titles := { x.titles with
            active := x.titles.active.other, armed := false, lastMark := wordAt p 0, proofLeft := left } }).logging
              .bankSwapped 0 0 0 (wordAt p 0)) [])
    ∧ (¬ (h.src = 0 ∧ p.length = 2) → s.completes (.mark h p) x [])

/-! ### Iron Monitor -/

/-- A SENSE: its bank FRESH with counter 0, its two comparators moved, each change of condition logged in index order,
the other bank untouched; a rejected one is reported outside CONFIG (R96, R97, R98, R99; the rows IRON_ALARM_ON and
IRON_ALARM_OFF carry the SENSE that brings them about, log 5). -/
def Obligations.ReadingsMoveComparators : Prop :=
  ∀ (h : Envelope) (p : List Byte) (c : Instr) (s : State), s.takes (h.message 0x03 p) →
    (c = .sense h p ∨ c = .ironAlarmOn h p ∨ c = .ironAlarmOff h p) →
    let x := s.heard (h.message 0x03 p)
    let v : Int := max (-400) (min 3000 (intAt2 p 1))
    let good := p.length = 3 ∧ (byteAt p 0 = 0 ∨ byteAt p 0 = 1) ∧ x.plays h.src 8
    let lo : Fin 4 := if byteAt p 0 = 0 then 0 else 2
    let hi : Fin 4 := if byteAt p 0 = 0 then 1 else 3
    let changes := fun (t : Table Comparator 4) (i : Fin 4) (y : State) =>
      y.loggingIf ((x.iron.comparators.get i).on != (t.get i).on)
        (if (t.get i).on then .ironAlarmOn else .ironAlarmOff) 17 0 0 (BitVec.ofNat 16 i.val)
    (good → ∀ t : Table Comparator 4,
      (x.iron.comparators.get lo).moves (t.get lo) v → (x.iron.comparators.get hi).moves (t.get hi) v →
      (∀ i, i ≠ lo → i ≠ hi → t.get i = x.iron.comparators.get i) →
      let iron : IronMonitor :=
        if byteAt p 0 = 0 then ⟨t, ⟨.fresh, 0⟩, x.iron.rear⟩ else ⟨t, x.iron.forward, ⟨.fresh, 0⟩⟩
      s.completes c (changes t hi (changes t lo { x with iron := iron })) [])
    ∧ (¬ good → x.rc.state = .config → s.completes c x [])
    ∧ (¬ good → x.rc.state ≠ .config → s.completes c (x.logging .roleMismatch 8 0 0 (h.src.setWidth 16)) [])

/-- A bank is in alarm when an enabled comparator of it is ON or its sense state is STALE (R100); at a stale advance both
counters rise to at most the limit, and a FRESH bank whose counter comes to the limit becomes STALE, the FORWARD bank's
alert before the REAR bank's (R101). -/
def Obligations.StaleBanksAndAlarm : Prop :=
  ∀ (e : Ev) (b : IronBank),
    let lo : Fin 4 := if b = .forward then 0 else 2
    let hi : Fin 4 := if b = .forward then 1 else 3
    let m := e.s.iron
    (m.inAlarm b = true ↔
      ((m.comparators.get lo).config.enable = true ∧ (m.comparators.get lo).on = true)
      ∨ ((m.comparators.get hi).config.enable = true ∧ (m.comparators.get hi).on = true)
      ∨ (if b = .forward then m.forward else m.rear).sense = .stale)
    ∧ (advanceStale e).s = e.s.staleAdvanced
    ∧ (advanceStale e).feeds = e.feeds

/-! ### Sightings -/

/-- A block sighting taken: the entry the lookup and the correction give joins the tail of BQ, the accepted total rises,
the flag's alert is logged, the block feeder's level follows (R42, R43, R44, R50). -/
def Obligations.BlockSightingEnqueued : Prop :=
  ∀ (h : Envelope) (p : List Byte) (s : State), s.takes (h.message 0x01 p) →
    let x := s.heard (h.message 0x01 p)
    let serial := serialAt p 1
    let key := keyAt p 5
    x.rc.state ≠ .config → p.length = 12 → byteAt p 0 = 1 → serial ≠ 0 → x.plays h.src 1 →
    (∀ b ∈ x.queues.bq, b.serial ≠ serial) →
    (∀ r ∈ x.queues.tq ++ x.queues.pt.records ++ x.queues.aq, r.serial ≠ serial) → x.queues.bq.length < 24 →
    let joins := fun b : BlockEntry =>
      { x with
        queues := { x.queues with bq := x.queues.bq ++ [b] }
        totals := { x.totals with blocks :=
          { x.totals.blocks with accepted := min 4294967295 (x.totals.blocks.accepted + 1) } } }
    (x.titles.lookup key = none →
      let u := (joins ⟨serial, key, none, 0, false, false, ⟨0, 0, false⟩, 0⟩).logging .unknownTitle 1 serial key 0
      s.completes (.blockSight h p) (u.levelled .block) (u.levelOrder .block))
    ∧ ∀ f, x.titles.lookup key = some f →
      let r := correct x.ccu.record (natAt2 p 8) (natAt2 p 10)
      let v := joins ⟨serial, key, some f, r.thickness, !(r.inTolerance f.data), r.clamped, ⟨0, 0, false⟩, 0⟩
      let u :=
        if r.clamped = true then v.logging .caliperClamped 1 serial key (BitVec.ofNat 16 r.thickness)
        else if r.inTolerance f.data = true then v
        else v.logging .offCaliper 1 serial key (BitVec.ofNat 16 r.thickness)
      s.completes (.blockSight h p) (u.levelled .block) (u.levelOrder .block)

/-- A case or jacket sighting taken joins the tail of its queue and its feeder's level follows (R42, R45, R46, R50). -/
def Obligations.CaseAndJacketSightingsEnqueued : Prop :=
  ∀ (h : Envelope) (p : List Byte) (s : State), s.takes (h.message 0x01 p) →
    let x := s.heard (h.message 0x01 p)
    let serial := serialAt p 1
    x.rc.state ≠ .config → serial ≠ 0 → wordAt p 5 ≠ 0 →
    (p.length = 9 → byteAt p 0 = 2 → natAt2 p 7 ≤ 15000 → x.plays h.src 2 →
      (∀ c ∈ x.queues.cq, c.serial ≠ serial) → x.queues.cq.length < 16 →
      let u := { x with
        queues := { x.queues with cq := x.queues.cq ++ [CaseEntry.mk serial (wordAt p 5) (natAt2 p 7) ⟨0, 0, false⟩] }
        totals := { x.totals with cases :=
          { x.totals.cases with accepted := min 4294967295 (x.totals.cases.accepted + 1) } } }
      s.completes (.caseSight h p) (u.levelled .caseFeeder) (u.levelOrder .caseFeeder))
    ∧ (p.length = 7 → byteAt p 0 = 3 → x.plays h.src 3 →
      (∀ j ∈ x.queues.jq, j.serial ≠ serial) → x.queues.jq.length < 16 →
      let u := { x with
        queues := { x.queues with jq := x.queues.jq ++ [JacketEntry.mk serial (wordAt p 5) ⟨0, 0, false⟩] }
        totals := { x.totals with jackets :=
          { x.totals.jackets with accepted := min 4294967295 (x.totals.jackets.accepted + 1) } } }
      s.completes (.jacketSight h p) (u.levelled .jacket) (u.levelOrder .jacket))

/-- A feeder's computed level, and the computation at the end of an event that found the queues as `before`: one for each
queue whose occupancy has changed, a FEED order formed when the level differs from the last sent, the last level sent
set (R50, R51; that there is one at the end of an event is log 21). -/
def Obligations.FeedLevelsComputed : Prop :=
  ∀ (before : Queues) (e : Ev),
    let s := e.s
    let level := fun (n low high : Nat) =>
      (if s.rc.state = .run then if n < low then .high else if n < high then .normal else .pause else .pause : FeedLevel)
    let b := level s.queues.bq.length s.limits.bqLow s.limits.bqHigh
    let c := level s.queues.cq.length s.limits.cqLow s.limits.cqHigh
    let j := level s.queues.jq.length s.limits.jqLow s.limits.jqHigh
    (computedLevel s .block = b ∧ computedLevel s .caseFeeder = c ∧ computedLevel s .jacket = j)
    ∧ (s.levelled .block = { s with feed := { s.feed with block := b } }
      ∧ s.levelled .caseFeeder = { s with feed := { s.feed with cases := c } }
      ∧ s.levelled .jacket = { s with feed := { s.feed with jacket := j } })
    ∧ (s.levelOrder .block = (if b = s.feed.block then [] else s.feedOrder .block b)
      ∧ s.levelOrder .caseFeeder = (if c = s.feed.cases then [] else s.feedOrder .caseFeeder c)
      ∧ s.levelOrder .jacket = (if j = s.feed.jacket then [] else s.feedOrder .jacket j))
    ∧ (s.queues.bq.length = before.bq.length → levelIfChanged before .block e = e)
    ∧ (s.queues.cq.length = before.cq.length → levelIfChanged before .caseFeeder e = e)
    ∧ (s.queues.jq.length = before.jq.length → levelIfChanged before .jacket e = e)
    ∧ (s.queues.bq.length ≠ before.bq.length →
      levelIfChanged before .block e =
        { e with s := s.levelled .block, feeds := e.feeds ++ if b = s.feed.block then [] else [(.block, b)] })
    ∧ (s.queues.cq.length ≠ before.cq.length →
      levelIfChanged before .caseFeeder e =
        { e with s := s.levelled .caseFeeder, feeds := e.feeds ++ if c = s.feed.cases then [] else [(.caseFeeder, c)] })
    ∧ (s.queues.jq.length ≠ before.jq.length →
      levelIfChanged before .jacket e =
        { e with s := s.levelled .jacket, feeds := e.feeds ++ if j = s.feed.jacket then [] else [(.jacket, j)] })
    ∧ (computeLevels before e).s = s.relevelled before
    ∧ (computeLevels before e).feeds.flatMap (fun f => s.feedOrder f.1 f.2) =
      e.feeds.flatMap (fun f => s.feedOrder f.1 f.2) ++ s.relevelOrders before

/-- The first failing condition of a SIGHT's form, numbered as BAD_SIGHTING reports it, none when its form is right
(R38); and the sightings that enqueue nothing: ignored in CONFIG, malformed, from a wrong source, re-read silently at the tail or
with SERIAL_REPEAT, or overflowing a full queue, which raises OVERFLOW (R37, R38, R39, R40, R41, R42; a block held in
two collections, which R40 rules out, is reported in the first of BQ, TQ, PT, AQ: log 23). -/
def Obligations.SightingsTurnedAway : Prop :=
  (∀ p : List Byte,
      let c1 := p = [] ∨ natAt1 p 0 = 0 ∨ 3 < natAt1 p 0
      let c2 := ¬ ((natAt1 p 0 = 1 ∧ p.length = 12) ∨ (natAt1 p 0 = 2 ∧ p.length = 9) ∨ (natAt1 p 0 = 3 ∧ p.length = 7))
      let c3 := serialAt p 1 = 0
      let c4 := (natAt1 p 0 = 2 ∨ natAt1 p 0 = 3) ∧ wordAt p 5 = 0
      let c5 := natAt1 p 0 = 2 ∧ 15000 < natAt2 p 7
      (c1 → badSighting p = some 1)
      ∧ (¬ c1 → c2 → badSighting p = some 2)
      ∧ (¬ c1 → ¬ c2 → c3 → badSighting p = some 3)
      ∧ (¬ c1 → ¬ c2 → ¬ c3 → c4 → badSighting p = some 4)
      ∧ (¬ c1 → ¬ c2 → ¬ c3 → ¬ c4 → c5 → badSighting p = some 5)
      ∧ (¬ c1 → ¬ c2 → ¬ c3 → ¬ c4 → ¬ c5 → badSighting p = none))
  ∧ ∀ (h : Envelope) (p : List Byte) (c : Instr) (s : State), s.takes (h.message 0x01 p) →
    (c = .blockSight h p ∨ c = .caseSight h p ∨ c = .jacketSight h p) →
    let x := s.heard (h.message 0x01 p)
    let role := natAt1 p 0
    let serial := serialAt p 1
    let node := fun r => x.plays h.src r
    let checked := x.rc.state ≠ .config ∧ badSighting p = none ∧ node role
    let repeated := fun (key : TitleKey) (code : Word) =>
      s.completes c (x.logging .serialRepeat (byteAt p 0) serial key code) []
    let overflows := fun (key : TitleKey) (code : Word) =>
      let v := x.logging .queueOverflow (byteAt p 0) serial key code
      s.completes c (v.caused .overflow) v.causeOrders
    let inBq := ∃ b ∈ x.queues.bq, b.serial = serial
    let inTq := ∃ r ∈ x.queues.tq, r.serial = serial
    let inPt := ∃ r ∈ x.queues.pt.records, r.serial = serial
    let inAq := ∃ r ∈ x.queues.aq, r.serial = serial
    let inCq := ∃ r ∈ x.queues.cq, r.serial = serial
    let inJq := ∃ r ∈ x.queues.jq, r.serial = serial
    (x.rc.state = .config → s.completes c x [])
    ∧ (∀ n, x.rc.state ≠ .config → badSighting p = some n →
      s.completes c (x.logging .badSighting (if p ≠ [] ∧ 1 ≤ role ∧ role ≤ 3 then byteAt p 0 else 0)
        (if 5 ≤ p.length then serial else 0) 0 (BitVec.ofNat 16 n)) [])
    ∧ (x.rc.state ≠ .config → badSighting p = none → ¬ node role →
      s.completes c (x.logging .roleMismatch (byteAt p 0) serial 0 (h.src.setWidth 16)) [])
    ∧ (checked → role = 1 →
      ((∃ b, x.queues.bq.getLast? = some b ∧ b.serial = serial) → s.completes c x [])
      ∧ ((∀ b, x.queues.bq.getLast? = some b → b.serial ≠ serial) →
        (inBq → repeated (keyAt p 5) 1)
        ∧ (¬ inBq → inTq → repeated (keyAt p 5) 4)
        ∧ (¬ inBq → ¬ inTq → inPt → repeated (keyAt p 5) 5)
        ∧ (¬ inBq → ¬ inTq → ¬ inPt → inAq → repeated (keyAt p 5) 6)
        ∧ (¬ inBq → ¬ inTq → ¬ inPt → ¬ inAq → 24 ≤ x.queues.bq.length → overflows (keyAt p 5) 1)))
    ∧ (checked → role = 2 →
      ((∃ b, x.queues.cq.getLast? = some b ∧ b.serial = serial) → s.completes c x [])
      ∧ ((∀ b, x.queues.cq.getLast? = some b → b.serial ≠ serial) →
        (inCq → repeated 0 2) ∧ (¬ inCq → 16 ≤ x.queues.cq.length → overflows 0 2)))
    ∧ (checked → role = 3 →
      ((∃ b, x.queues.jq.getLast? = some b ∧ b.serial = serial) → s.completes c x [])
      ∧ ((∀ b, x.queues.jq.getLast? = some b → b.serial ≠ serial) →
        (inJq → repeated 0 3) ∧ (¬ inJq → 16 ≤ x.queues.jq.length → overflows 0 3)))

/-! ### The merge points -/

/-- Reconciliation of a presence flag with a queue of blocks, cases, jackets or books (R62, R63, R64), and the counts of a
starved head (R65); a count above its limit, which no run reaches, has reached it (log 20). -/
def Obligations.PresenceAndStarving : Prop :=
  reconcilesBy BlockEntry.wait BlockEntry.setWait (fun n b => { b with wait := { b.wait with absent := n } })
  ∧ reconcilesBy CaseEntry.wait CaseEntry.setWait (fun n c => { c with wait := { c.wait with absent := n } })
  ∧ reconcilesBy JacketEntry.wait JacketEntry.setWait (fun n j => { j with wait := { j.wait with absent := n } })
  ∧ reconcilesBy BookRecord.wait BookRecord.setWait (fun n r => { r with wait := { r.wait with absent := n } })
  ∧ ∀ (limit : Nat) (w : Waiting),
    w.starve limit = starvedCounts w limit
    ∧ (w.starveAlerts limit = true ↔ w.mark = false ∧ limit ≤ min 255 (w.starved + 1))

/-- The casing decision: the first case of R66 that holds, with the lookahead of R68 and the fit-fail count of R69 (a count
above its limit, which no run reaches, has reached it, log 20); and the jacket decision: the first case of R111 that
holds, with the lookahead of R113. -/
def Obligations.CasingAndJacketDecisions : Prop :=
  (∀ (l : Limits) (cs : List CaseEntry) (b : BlockEntry) (c : CaseEntry),
      let ahead := fun key => ∃ i, i < l.caseWindow ∧ ∃ x, cs[i]? = some x ∧ x.key = key
      ((b.title = none ∨ b.offCaliper = true) → casingCase l cs (some b) (some c) = .flagged b)
      ∧ (∀ f, b.title = some f → b.offCaliper = false →
        (c.key ≠ f.data.caseKey → ahead f.data.caseKey → casingCase l cs (some b) (some c) = .wrongCase c)
        ∧ (c.key ≠ f.data.caseKey → ¬ ahead f.data.caseKey → casingCase l cs (some b) (some c) = .noCase b)
        ∧ (c.key = f.data.caseKey → fits f.data c.spine b.thickness = true →
          casingCase l cs (some b) (some c) = .matched b c f.data)
        ∧ (c.key = f.data.caseKey → fits f.data c.spine b.thickness = false → b.fitFail + 1 < l.fitFail →
          casingCase l cs (some b) (some c) = .misfit b c)
        ∧ (c.key = f.data.caseKey → fits f.data c.spine b.thickness = false → l.fitFail ≤ b.fitFail + 1 →
          casingCase l cs (some b) (some c) = .misfitLimit b c))
      ∧ casingCase l cs (some b) none = .blockWaits b
      ∧ casingCase l cs none (some c) = .caseWaits c
      ∧ casingCase l cs none none = .neither)
  ∧ ∀ (l : Limits) (js : List JacketEntry) (k : BookRecord) (j : JacketEntry),
    let ahead := ∃ i, i < l.jacketWindow ∧ ∃ x, js[i]? = some x ∧ x.key = k.jacketKey
    (k.jacketKey = 0 → jacketCase l js (some k) (some j) = .unjacketed k ∧ jacketCase l js (some k) none = .unjacketed k)
    ∧ (k.jacketKey ≠ 0 → j.key ≠ k.jacketKey → ahead → jacketCase l js (some k) (some j) = .wrongJacket j)
    ∧ (k.jacketKey ≠ 0 → j.key ≠ k.jacketKey → ¬ ahead → jacketCase l js (some k) (some j) = .noJacket k)
    ∧ (k.jacketKey ≠ 0 → j.key = k.jacketKey → jacketCase l js (some k) (some j) = .apply k j)
    ∧ (k.jacketKey ≠ 0 → jacketCase l js (some k) none = .bookWaits k)
    ∧ jacketCase l js none (some j) = .jacketWaits j
    ∧ jacketCase l js none none = .neither

/-- CYCLEs that are not taken: ignored in CONFIG, else reported (R55); the rows that name what comes about in a cycle carry
its CYCLE (log 5). -/
def Obligations.CyclesTurnedAway : Prop :=
  ∀ (h : Envelope) (p : List Byte) (c : Instr) (s : State), s.takes (h.message 0x02 p) →
    (c = .casingCycle h p ∨ c = .pressIndex h p ∨ c = .jacketCycle h p ∨ c = .itemLost h p ∨ c = .starved h p
      ∨ c = .fitFailLimit h p ∨ c = .senseStale h p) →
    let x := s.heard (h.message 0x02 p)
    let role := natAt1 p 0
    (x.rc.state = .config → s.completes c x [])
    ∧ (x.rc.state ≠ .config → ¬ (p.length = 4 ∧ (role = 7 ∨ role = 8 ∨ role = 9) ∧ x.plays h.src role) →
      s.completes c (x.logging .roleMismatch (if p ≠ [] ∧ 7 ≤ role ∧ role ≤ 9 then byteAt p 0 else 0) 0 0
        (h.src.setWidth 16)) [])

/-- A taken casing CYCLE: stamp, continuity, reconciliation of block and case, decision, one CASEIN order, tallies, feed
levels (R56, R57, R58, R59, R60, R66 to R76). The model's choices in it: the rows ITEM_LOST, STARVED, FIT_FAIL_LIMIT and
DRAIN_COMPLETE are the CYCLE that brings them about (log 5); what a full outbound queue makes of the event rests on logs 10
and 11; the feed levels are computed once, at its end, and drain completion is checked after a removal (log 21). -/
def Obligations.CasingCycleTaken : Prop :=
  ∀ (h : Envelope) (p : List Byte) (c : Instr) (s : State), s.takes (h.message 0x02 p) →
    (c = .casingCycle h p ∨ c = .itemLost h p ∨ c = .starved h p ∨ c = .fitFailLimit h p
      ∨ c = .drainComplete (h.message 0x02 p)) →
    let x := s.heard (h.message 0x02 p)
    x.rc.state ≠ .config → p.length = 4 → byteAt p 0 = 7 → x.plays h.src 7 →
    let n := wordAt p 1
    let inSeq := follows x.cycles.lastCasing n
    let y := ({ x with cycles := { x.cycles with lastCasing := some n, stamp := x.cycles.stamp + 1 } }).gapChecked inSeq
      16 n
    let q := y.queues
    let rb := reconcile BlockEntry.wait BlockEntry.setWait ((byteAt p 3).getLsbD 0) x.limits.casingWait q.bq
    let rc := reconcile CaseEntry.wait CaseEntry.setWait ((byteAt p 3).getLsbD 1) x.limits.casingWait q.cq
    let z := ((y.holding rb.2 rc.2 q.jq q.tq q.aq).reconciled rb.1 16 7 1 BlockEntry.serial BlockEntry.key).reconciled
      rc.1 16 7 2 CaseEntry.serial fun _ => 0
    let o := casingServed (casingCase x.limits rc.2.tail rb.1.head rc.1.head) z
    let ys := lostTallies (fun b => blockTally b .lost .queue (blockReasons b)) rb.1
      ++ lostTallies (fun c : CaseEntry => ⟨.caseItem, c.serial, 0, .lost, .queue, [], 0⟩) rc.1
      ++ phantomAccount .block .casing rb.1 ++ phantomAccount .caseItem .casing rc.1 ++ o.ys
    let order : Message :=
      ⟨x.lineMap.role 7, x.ring.ownNode, 0x11, 0,
        bytes2 n ++ [if rb.1.isPhantom then 3 else o.first, if rc.1.isPhantom then 3 else o.second]
          ++ bytes2 (BitVec.ofNat 16 o.left) ++ bytes2 (BitVec.ofNat 16 o.right)
          ++ bytes4 ((rb.1.head.map BlockEntry.serial).getD 0)⟩
    let u := { o.after with totals := x.totals.talliedAll ys }
    s.cycleEnds c x.queues (decide (u.queues.bq.length < x.queues.bq.length)) u order ys (x.gapOrders inSeq ++ o.orders)

/-- A taken press CYCLE: continuity, reconciliation of the infeed book, outfeed to AQ, shift, suspect marking, stale
advance, one PRESS order (R56 to R59, R81 to R86, R89 to R92). The model's choices in it: the rows ITEM_LOST, SENSE_STALE
and DRAIN_COMPLETE are the CYCLE that brings them about (log 5); what a full outbound queue makes of the event rests on
logs 10 and 11; the feed levels are computed once, at its end, and drain completion is checked after a removal (log 21). -/
def Obligations.PressIndexTaken : Prop :=
  ∀ (h : Envelope) (p : List Byte) (c : Instr) (s : State), s.takes (h.message 0x02 p) →
    (c = .pressIndex h p ∨ c = .itemLost h p ∨ c = .senseStale h p ∨ c = .drainComplete (h.message 0x02 p)) →
    let x := s.heard (h.message 0x02 p)
    x.rc.state ≠ .config → p.length = 4 → byteAt p 0 = 8 → x.plays h.src 8 →
    let n := wordAt p 1
    let inSeq := follows x.cycles.lastPress n
    let y := ({ x with cycles := { x.cycles with lastPress := some n } }).gapChecked inSeq 17 n
    let q := y.queues
    let ri := reconcile BookRecord.wait BookRecord.setWait ((byteAt p 3).getLsbD 0) x.limits.pressWait q.tq
    let z := y.reconciled ri.1 17 8 4 BookRecord.serial BookRecord.key
    let full := decide (8 ≤ q.aq.length)
    let v := match q.pt.p6 with
      | none => z
      | some r => if full then (z.logging .queueOverflow 17 r.serial r.key 6).caused .overflow else z
    let outOrders := match q.pt.p6 with
      | none => []
      | some _ => if full then z.causeOrders else []
    let aq := match q.pt.p6 with
      | none => q.aq
      | some r => if full then q.aq else q.aq ++ [{ r with wait := ⟨0, 0, false⟩ }]
    let enters : Option BookRecord :=
      if ri.1.isPhantom then some ⟨0, 0, 0, 0, none, ⟨false, false, true⟩, ⟨0, 0, false⟩⟩ else ri.1.head
    let tq := if ri.1.head.isSome then ri.2.tail else ri.2
    let pt : PressTrain :=
      ⟨enters.map (y.examined 0), q.pt.p1.map (y.examined 1), q.pt.p2.map (y.examined 2), q.pt.p3.map (y.examined 3),
        q.pt.p4.map (y.examined 4), q.pt.p5.map (y.examined 5)⟩
    let w := ({ v with queues := ⟨q.bq, q.cq, q.jq, tq, pt, aq⟩ }).staleAdvanced
    let ys := lostTallies (fun r => bookTally r .lost .queue []) ri.1
      ++ (match q.pt.p6 with
        | none => []
        | some r => if full then [bookTally r .lost .press []] else [])
    let held := [pt.p1, pt.p2, pt.p3, pt.p4, pt.p5, pt.p6]
    let entry := fun (i : Nat) (r : Option BookRecord) => ((r.map (y.entryOf i)).getD ⟨0, false⟩ : ProfileEntry)
    let entries := [entry 0 pt.p1, entry 1 pt.p2, entry 2 pt.p3, entry 3 pt.p4, entry 4 pt.p5, entry 5 pt.p6]
    let order : Message :=
      ⟨x.lineMap.role 8, x.ring.ownNode, 0x12, 0,
        bytes2 n ++ entries.map ProfileEntry.pressure
          ++ [BitVec.ofNat 8 (bits (entries.map ProfileEntry.heat)), BitVec.ofNat 8 (bits (held.map Option.isSome))]
          ++ bytes4 ((enters.map BookRecord.serial).getD 0)⟩
    let u := { w with totals := x.totals.talliedAll ys }
    s.cycleEnds c x.queues (decide (tq.length < x.queues.tq.length) || x.queues.pt.p6.isSome) u order ys
      (x.gapOrders inSeq ++ outOrders)

/-- A taken jacket CYCLE: continuity, reconciliation of book and jacket, decision, route, one JACKET order, tallies, feed
level (R56 to R59, R107 to R120). The model's choices in it: the rows ITEM_LOST, STARVED and DRAIN_COMPLETE are the CYCLE
that brings them about (log 5); what a full outbound queue makes of the event rests on logs 10 and 11; the feed level is
computed once, at its end, and drain completion is checked after a removal (log 21). -/
def Obligations.JacketCycleTaken : Prop :=
  ∀ (h : Envelope) (p : List Byte) (c : Instr) (s : State), s.takes (h.message 0x02 p) →
    (c = .jacketCycle h p ∨ c = .itemLost h p ∨ c = .starved h p ∨ c = .drainComplete (h.message 0x02 p)) →
    let x := s.heard (h.message 0x02 p)
    x.rc.state ≠ .config → p.length = 4 → byteAt p 0 = 9 → x.plays h.src 9 →
    let n := wordAt p 1
    let inSeq := follows x.cycles.lastJacket n
    let y := ({ x with cycles := { x.cycles with lastJacket := some n } }).gapChecked inSeq 18 n
    let q := y.queues
    let rk := reconcile BookRecord.wait BookRecord.setWait ((byteAt p 3).getLsbD 0) x.limits.jacketWait q.aq
    let rj := reconcile JacketEntry.wait JacketEntry.setWait ((byteAt p 3).getLsbD 1) x.limits.jacketWait q.jq
    let z := ((y.holding q.bq q.cq rj.2 q.tq rk.2).reconciled rk.1 18 9 6 BookRecord.serial BookRecord.key).reconciled
      rj.1 18 9 3 JacketEntry.serial fun _ => 0
    let o := jacketServed (jacketCase x.limits rj.2.tail rk.1.head rj.1.head) z
    let ys := lostTallies (fun r => bookTally r .lost .queue []) rk.1
      ++ lostTallies (fun j : JacketEntry => ⟨.jacket, j.serial, 0, .lost, .queue, [], 0⟩) rj.1
      ++ phantomAccount .block .jacketing rk.1 ++ phantomAccount .jacket .jacketing rj.1 ++ o.ys
    let order : Message :=
      ⟨x.lineMap.role 9, x.ring.ownNode, 0x13, 0,
        bytes2 n
          ++ [if rk.1.isPhantom then 1 else o.first, if rj.1.isPhantom then 3 else o.second,
            if rk.1.isPhantom then 3 else o.route]
          ++ bytes4 ((rk.1.head.map BookRecord.serial).getD 0)⟩
    let u := { o.after with totals := x.totals.talliedAll ys }
    s.cycleEnds c x.queues (decide (u.queues.aq.length < x.queues.aq.length)) u order ys (x.gapOrders inSeq ++ o.orders)

/-- The total a tally raises: of the 21 in the order of Table 7-5, the one of its item type and route, or the untracked
total of its type when its serial is 0; it rises by 1, saturating at 4294967295, and no other changes. Tallies counted in
any number raise each total by as many of them as name it (R75, R121, R123). -/
def Obligations.TalliesRaiseTheirTotals : Prop :=
  let numbered := fun t : Totals =>
    [t.blocks.accepted, t.blocks.good, t.blocks.inspect, t.blocks.reject, t.blocks.lost, t.blocks.purged,
      t.blocks.untracked, t.cases.accepted, t.cases.good, t.cases.inspect, t.cases.reject, t.cases.lost,
      t.cases.purged, t.cases.untracked, t.jackets.accepted, t.jackets.good, t.jackets.inspect, t.jackets.reject,
      t.jackets.lost, t.jackets.purged, t.jackets.untracked]
  let column := fun y : Tally =>
    match y.item with
    | .block => 0
    | .caseItem => 7
    | .jacket => 14
  let row := fun y : Tally =>
    if y.serial = 0 then 6
    else match y.route with
      | .good => 1
      | .inspect => 2
      | .reject => 3
      | .lost => 4
      | .purged => 5
  let raised := fun y : Tally => column y + row y
  (∀ (t : Totals) (y : Tally) (i : Nat), i < 21 →
    (numbered (t.tallied y)).getD i 0 =
      if i = raised y then min 4294967295 ((numbered t).getD i 0 + 1) else (numbered t).getD i 0)
  ∧ ∀ (t : Totals) (ys : List Tally) (i : Nat), i < 21 → (numbered t).getD i 0 ≤ 4294967295 →
    (numbered (t.talliedAll ys)).getD i 0 =
      min 4294967295 ((numbered t).getD i 0 + ys.countP fun y => raised y == i)

/-! ### Messages -/

/-- The layouts and codes of the TALLY, FEED, ALERT and REPLY messages, high byte first, and every code the part takes or
sends: kinds, requests, regions, alerts, collections, run and link states, proof results, halt causes, roles (R52, R121,
R127, R129, R132, R146, R155, R166; Tables 3-2, 8-3, 8-5, 9-2 to 9-4, 10-1, 10-3 and 10-5). -/
def Obligations.MessageLayouts : Prop :=
  (∀ (s : State) (y : Tally),
    let item : Byte := match y.item with
      | .block => 1
      | .caseItem => 2
      | .jacket => 3
    let route : Byte := match y.route with
      | .good => 1
      | .inspect => 2
      | .reject => 3
      | .lost => 4
      | .purged => 5
    let stage : Byte := match y.stage with
      | .casing => 16
      | .press => 17
      | .jacketing => 18
      | .queue => 19
    tallyMessage s y =
      ⟨63, s.ring.ownNode, 0x08, 0,
        [item] ++ bytes4 y.serial ++ bytes3 y.key ++ [route, stage] ++ bytes2 (reasonBits y.reasons)
          ++ bytes2 (BitVec.ofNat 16 y.thickness)⟩)
  ∧ (∀ (rs : List TallyReason) (i : Nat), (reasonBits rs).getLsbD i = true ↔ ∃ r ∈ rs, i = match r with
      | .unknownTitle => 0
      | .offCaliper => 1
      | .caliperClamped => 2
      | .wrongCase => 3
      | .noCase => 4
      | .fit => 5
      | .doseClamped => 6
      | .heatSuspect => 7
      | .wrongJacket => 8
      | .noJacket => 9
      | .proofCopy => 10
      | .untracked => 11)
  ∧ (∀ (w : BitVec 16) (k : BitVec 24) (x : BitVec 32),
    (bytes2 w).length = 2 ∧ byteAt (bytes2 w) 0 ++ byteAt (bytes2 w) 1 = w
      ∧ (bytes3 k).length = 3 ∧ byteAt (bytes3 k) 0 ++ byteAt (bytes3 k) 1 ++ byteAt (bytes3 k) 2 = k
      ∧ (bytes4 x).length = 4
      ∧ byteAt (bytes4 x) 0 ++ byteAt (bytes4 x) 1 ++ byteAt (bytes4 x) 2 ++ byteAt (bytes4 x) 3 = x)
  ∧ (∀ (s : State) (f : Feeder) (v : FeedLevel),
    let node := match f with
      | .block => s.lineMap.get 3
      | .caseFeeder => s.lineMap.get 4
      | .jacket => s.lineMap.get 5
    let level : Byte := match v with
      | .pause => 0
      | .normal => 1
      | .high => 2
    s.feedOrder f v = if node = 0 then [] else [⟨node, s.ring.ownNode, 0x10, 0, [level]⟩])
  ∧ (∀ (s : State) (tag : Byte) (st : Status) (r : Reason),
    let status : Byte := match st with
      | .ok => 0
      | .unknown => 1
      | .length => 2
      | .range => 3
      | .state => 4
      | .isProtected => 5
      | .duplicate => 6
      | .busy => 7
      | .refused => 8
    let reason : Byte := match r with
      | .none => 0
      | .calMissing => 1
      | .mapIncomplete => 2
      | .tableEmpty => 3
      | .proofFailed => 4
      | .linkDown => 5
      | .causePersists => 6
    ctrlReply s tag st r = ⟨0, s.ring.ownNode, 0x28, tag, [status, reason]⟩
      ∧ ∀ (region : Region) (rest : List Byte),
        s.writeReply tag st region rest = ⟨0, s.ring.ownNode, 0x28, tag, status :: region.code :: rest.take 3⟩)
  ∧ (∀ (s t : State),
    (s.mu.log = [] → t.mu.log ≠ [] → s.alertFor t = [⟨0, t.ring.ownNode, 0x29, 0, [1]⟩])
    ∧ (¬ (s.mu.log = [] ∧ t.mu.log ≠ []) → s.alertFor t = []))
  ∧ (∀ k : Kind, k.code = match k with
      | .sight => 0x01
      | .cycle => 0x02
      | .sense => 0x03
      | .mark => 0x04
      | .tally => 0x08
      | .feed => 0x10
      | .casein => 0x11
      | .press => 0x12
      | .jacket => 0x13
      | .ctrl => 0x20
      | .write => 0x21
      | .read => 0x22
      | .reply => 0x28
      | .alert => 0x29
      | .proof => 0x30)
  ∧ (∀ r : Request, r.code = match r with
      | .start => 0x01
      | .halt => 0x02
      | .resume => 0x03
      | .drain => 0x04
      | .abort => 0x05
      | .purge => 0x06
      | .clear => 0x07
      | .reset => 0x08
      | .arm => 0x10
      | .disarm => 0x11
      | .copy => 0x12
      | .store => 0x18
      | .proof => 0x19)
  ∧ (∀ r : Region, r.code = match r with
      | .title => 0x01
      | .dose => 0x02
      | .profile => 0x03
      | .calibration => 0x04
      | .limits => 0x05
      | .linemap => 0x06
      | .node => 0x07
      | .comparator => 0x08
      | .protect => 0x09
      | .status => 0x10
      | .totals => 0x11
      | .ident => 0x12
      | .queue => 0x13
      | .alerts => 0x14)
  ∧ (∀ a : AlertCode, a.code = match a with
      | .badSighting => 0x01
      | .roleMismatch => 0x02
      | .serialRepeat => 0x03
      | .unknownTitle => 0x04
      | .offCaliper => 0x05
      | .caliperClamped => 0x06
      | .queueOverflow => 0x07
      | .phantom => 0x08
      | .itemLost => 0x09
      | .starved => 0x0A
      | .cycleGap => 0x0B
      | .doseClamped => 0x0C
      | .ironAlarmOn => 0x0D
      | .ironAlarmOff => 0x0E
      | .senseStale => 0x0F
      | .noTaker => 0x10
      | .outboundFull => 0x11
      | .linkDown => 0x12
      | .linkUp => 0x13
      | .halted => 0x14
      | .drained => 0x15
      | .purged => 0x16
      | .bankSwapped => 0x17
      | .storeFixed => 0x18
      | .storeBad => 0x19
      | .storeDone => 0x1A
      | .proofDone => 0x1B)
  ∧ (∀ b : Byte,
    (∀ k : Kind, Kind.ofCode b = some k ↔ k.code = b) ∧ (∀ r : Request, Request.ofCode b = some r ↔ r.code = b)
      ∧ ∀ r : Region, Region.ofCode b = some r ↔ r.code = b)
  ∧ (∀ r : Route, r.code = match r with
      | .good => 1
      | .inspect => 2
      | .reject => 3
      | .lost => 4
      | .purged => 5)
  ∧ (∀ c : Collection, c.code = match c with
      | .bq => 1
      | .cq => 2
      | .jq => 3
      | .tq => 4
      | .pt => 5
      | .aq => 6)
  ∧ (RunState.code .config = 0 ∧ RunState.code .run = 1 ∧ RunState.code .halt = 2 ∧ RunState.code .drain = 3)
  ∧ (LinkState.code .down = 0 ∧ LinkState.code .acquiring = 1 ∧ LinkState.code .up = 2)
  ∧ (ProofResult.code .none = 0 ∧ ProofResult.code .pass = 1 ∧ ProofResult.code .fail = 2)
  ∧ (BankName.code .a = 0 ∧ BankName.code .b = 1)
  ∧ (∀ (x : CauseSet) (c : Cause),
    x.add c = ⟨x.master || c == .master, x.overflow || c == .overflow, x.tracking || c == .tracking,
        x.outboundFull || c == .outboundFull, x.noTaker || c == .noTaker, x.link || c == .link⟩
      ∧ x.weight = (if x.master then 1 else 0) + (if x.overflow then 2 else 0) + (if x.tracking then 4 else 0)
        + (if x.outboundFull then 8 else 0) + (if x.noTaker then 16 else 0) + (if x.link then 32 else 0))
  ∧ (∀ (map : LineMap) (i : Fin 9), map.role (i.val + 1) = map.get i)
  ∧ (∀ p : Profile, p.entries = [p.e1, p.e2, p.e3, p.e4, p.e5, p.e6])
  ∧ ∀ (p : List Byte) (i : Nat),
    byteAt p i = p[i]?.getD 0 ∧ natAt1 p i = (byteAt p i).toNat
      ∧ natAt2 p i = 256 * natAt1 p i + natAt1 p (i + 1) ∧ (wordAt p i).toNat = natAt2 p i
      ∧ (keyAt p i).toNat = 65536 * natAt1 p i + natAt2 p (i + 1)
      ∧ (serialAt p i).toNat = 65536 * natAt2 p i + natAt2 p (i + 2)
      ∧ intAt2 p i = if natAt2 p i < 32768 then (natAt2 p i : Int) else (natAt2 p i : Int) - 65536

/-! ### Whole-machine rules -/

/-- Every step keeps the invariant of the line: causes and STOP_N only in HALT, nothing held in CONFIG, PAUSE outside
RUN, capacities, ATTN with the log, the transmitter never idle beside a waiting message (R50, R127, R128, R134, R138,
R153, R154, R165, R166). -/
def Obligations.LineInvariantKept : Prop :=
  ∀ s t : State, s.lineSound → step s = .next t → t.lineSound

/-- Every step keeps the invariant of the data: no key twice in a bank, no serial held twice, every setting in range,
every carry below its shot size, every count below its limit (R5, R16, R30, R33, R38, R40, R41, R49, R64, R69). -/
def Obligations.DataInvariantKept : Prop :=
  ∀ s t : State, s.lineSound → s.dataSound → step s = .next t → t.dataSound

/-- The state after reset meets the invariants and the accounting equation; its settings are the model's choice (logs 1
and 2). -/
def Obligations.ResetMeetsInvariants : Prop := State.reset.lineSound ∧ State.reset.dataSound ∧ State.reset.balanced

/-- The accounting equation of each item type (R125): every command but a CTRL CLEAR keeps it while no total has
saturated, both resets make it hold by clearing both sides, and CLEAR makes every total 0 and leaves what is held. -/
def Obligations.AccountingKept : Prop :=
  (∀ (c : Instr) (s t : State), exec c s = .next t → (∀ m, carried c = some m → m.kind = 0x20 → byteAt m.payload 0 ≠ 7) →
    (∀ b ∈ s.queues.bq, b.serial ≠ 0) → (∀ x ∈ s.queues.cq, x.serial ≠ 0) → (∀ j ∈ s.queues.jq, j.serial ≠ 0) →
    t.unsaturated → s.balanced → t.balanced)
  ∧ (∀ (n : Nat) (s t : State), exec (.powerOnReset n) s = .next t →
    t.queues.isEmpty ∧ t.totals = ⟨⟨0, 0, 0, 0, 0, 0, 0⟩, ⟨0, 0, 0, 0, 0, 0, 0⟩, ⟨0, 0, 0, 0, 0, 0, 0⟩⟩ ∧ t.balanced)
  ∧ ∀ (h : Envelope) (arg : Byte) (s t : State), s.obeys h →
    (exec (.reset h [arg]) s = .next t →
      t.queues.isEmpty ∧ t.totals = ⟨⟨0, 0, 0, 0, 0, 0, 0⟩, ⟨0, 0, 0, 0, 0, 0, 0⟩, ⟨0, 0, 0, 0, 0, 0, 0⟩⟩ ∧ t.balanced)
    ∧ (exec (.clear h [arg]) s = .next t →
      t.queues = s.queues ∧ t.totals = ⟨⟨0, 0, 0, 0, 0, 0, 0⟩, ⟨0, 0, 0, 0, 0, 0, 0⟩, ⟨0, 0, 0, 0, 0, 0, 0⟩⟩)

/-- What may change the settings and the banks: outside power-on, the settings of a run change only by a WRITE of node 0
in CONFIG, comparators and protect level only by such a WRITE, the active bank's records never but by a MARK of node 0
(R4, R6, R7, R13, R20, R30, R88, R103, R152, R155, R159). -/
def Obligations.SettingsHeldStill : Prop :=
  ∀ (c : Instr) (s t : State), exec c s = .next t → (∀ n, c ≠ .powerOnReset n) → (∀ cells, c ≠ .powerOnLoad cells) →
    let writes := s.phase = .running ∧ ∃ m, carried c = some m ∧ m.kind = 0x21 ∧ m.src = 0 ∧ m.dst = s.ring.ownNode
    (t.limits ≠ s.limits ∨ t.ccu ≠ s.ccu ∨ t.lineMap ≠ s.lineMap ∨ t.profiles ≠ s.profiles
      ∨ t.dose.recipes ≠ s.dose.recipes ∨ t.ring.ownNode ≠ s.ring.ownNode → s.rc.state = .config ∧ writes)
    ∧ (t.iron.comparators.map Comparator.config ≠ s.iron.comparators.map Comparator.config
      ∨ t.titles.protect ≠ s.titles.protect → writes)
    ∧ (t.titles.activeBank ≠ s.titles.activeBank →
      ∃ m, carried c = some m ∧ m.kind = 4 ∧ m.src = 0 ∧ s.titles.armed = true)
end

