-- ==== Sys2Proof/Laws/State.lean ====
section
/-! SUPPORT. One lemma per field per named update of the state, each true by unfolding, so that no later proof unfolds a
record update. -/

namespace Sys2Proof.Machine

/-! ### Updates of a state -/

@[simp] theorem State.logging_pending (code : AlertCode) (stage : Byte) (serial : Serial) (key : TitleKey) (detail : Word) (s : State) : (s.logging code stage serial key detail).pending = s.pending := rfl
@[simp] theorem State.logging_phase (code : AlertCode) (stage : Byte) (serial : Serial) (key : TitleKey) (detail : Word) (s : State) : (s.logging code stage serial key detail).phase = s.phase := rfl
@[simp] theorem State.logging_pins (code : AlertCode) (stage : Byte) (serial : Serial) (key : TitleKey) (detail : Word) (s : State) : (s.logging code stage serial key detail).pins = s.pins := rfl
@[simp] theorem State.logging_ring (code : AlertCode) (stage : Byte) (serial : Serial) (key : TitleKey) (detail : Word) (s : State) : (s.logging code stage serial key detail).ring = s.ring := rfl
@[simp] theorem State.logging_lineMap (code : AlertCode) (stage : Byte) (serial : Serial) (key : TitleKey) (detail : Word) (s : State) : (s.logging code stage serial key detail).lineMap = s.lineMap := rfl
@[simp] theorem State.logging_titles (code : AlertCode) (stage : Byte) (serial : Serial) (key : TitleKey) (detail : Word) (s : State) : (s.logging code stage serial key detail).titles = s.titles := rfl
@[simp] theorem State.logging_ccu (code : AlertCode) (stage : Byte) (serial : Serial) (key : TitleKey) (detail : Word) (s : State) : (s.logging code stage serial key detail).ccu = s.ccu := rfl
@[simp] theorem State.logging_dose (code : AlertCode) (stage : Byte) (serial : Serial) (key : TitleKey) (detail : Word) (s : State) : (s.logging code stage serial key detail).dose = s.dose := rfl
@[simp] theorem State.logging_queues (code : AlertCode) (stage : Byte) (serial : Serial) (key : TitleKey) (detail : Word) (s : State) : (s.logging code stage serial key detail).queues = s.queues := rfl
@[simp] theorem State.logging_cycles (code : AlertCode) (stage : Byte) (serial : Serial) (key : TitleKey) (detail : Word) (s : State) : (s.logging code stage serial key detail).cycles = s.cycles := rfl
@[simp] theorem State.logging_limits (code : AlertCode) (stage : Byte) (serial : Serial) (key : TitleKey) (detail : Word) (s : State) : (s.logging code stage serial key detail).limits = s.limits := rfl
@[simp] theorem State.logging_feed (code : AlertCode) (stage : Byte) (serial : Serial) (key : TitleKey) (detail : Word) (s : State) : (s.logging code stage serial key detail).feed = s.feed := rfl
@[simp] theorem State.logging_totals (code : AlertCode) (stage : Byte) (serial : Serial) (key : TitleKey) (detail : Word) (s : State) : (s.logging code stage serial key detail).totals = s.totals := rfl
@[simp] theorem State.logging_profiles (code : AlertCode) (stage : Byte) (serial : Serial) (key : TitleKey) (detail : Word) (s : State) : (s.logging code stage serial key detail).profiles = s.profiles := rfl
@[simp] theorem State.logging_iron (code : AlertCode) (stage : Byte) (serial : Serial) (key : TitleKey) (detail : Word) (s : State) : (s.logging code stage serial key detail).iron = s.iron := rfl
@[simp] theorem State.logging_rc (code : AlertCode) (stage : Byte) (serial : Serial) (key : TitleKey) (detail : Word) (s : State) : (s.logging code stage serial key detail).rc = s.rc := rfl
@[simp] theorem State.logging_store (code : AlertCode) (stage : Byte) (serial : Serial) (key : TitleKey) (detail : Word) (s : State) : (s.logging code stage serial key detail).store = s.store := rfl
@[simp] theorem State.logging_mu (code : AlertCode) (stage : Byte) (serial : Serial) (key : TitleKey) (detail : Word) (s : State) : (s.logging code stage serial key detail).mu = s.mu.logged ⟨code, stage, serial, key, s.cycles.stamp, detail⟩ := rfl

@[simp] theorem State.sending_pending (ms : List Message) (s : State) : (s.sending ms).pending = s.pending := rfl
@[simp] theorem State.sending_phase (ms : List Message) (s : State) : (s.sending ms).phase = s.phase := rfl
@[simp] theorem State.sending_pins (ms : List Message) (s : State) : (s.sending ms).pins = s.pins := rfl
@[simp] theorem State.sending_lineMap (ms : List Message) (s : State) : (s.sending ms).lineMap = s.lineMap := rfl
@[simp] theorem State.sending_titles (ms : List Message) (s : State) : (s.sending ms).titles = s.titles := rfl
@[simp] theorem State.sending_ccu (ms : List Message) (s : State) : (s.sending ms).ccu = s.ccu := rfl
@[simp] theorem State.sending_dose (ms : List Message) (s : State) : (s.sending ms).dose = s.dose := rfl
@[simp] theorem State.sending_queues (ms : List Message) (s : State) : (s.sending ms).queues = s.queues := rfl
@[simp] theorem State.sending_cycles (ms : List Message) (s : State) : (s.sending ms).cycles = s.cycles := rfl
@[simp] theorem State.sending_limits (ms : List Message) (s : State) : (s.sending ms).limits = s.limits := rfl
@[simp] theorem State.sending_feed (ms : List Message) (s : State) : (s.sending ms).feed = s.feed := rfl
@[simp] theorem State.sending_totals (ms : List Message) (s : State) : (s.sending ms).totals = s.totals := rfl
@[simp] theorem State.sending_profiles (ms : List Message) (s : State) : (s.sending ms).profiles = s.profiles := rfl
@[simp] theorem State.sending_iron (ms : List Message) (s : State) : (s.sending ms).iron = s.iron := rfl
@[simp] theorem State.sending_rc (ms : List Message) (s : State) : (s.sending ms).rc = s.rc := rfl
@[simp] theorem State.sending_mu (ms : List Message) (s : State) : (s.sending ms).mu = s.mu := rfl
@[simp] theorem State.sending_store (ms : List Message) (s : State) : (s.sending ms).store = s.store := rfl
@[simp] theorem State.sending_ring (ms : List Message) (s : State) : (s.sending ms).ring = RingPort.choose { s.ring with outbound := s.ring.outbound ++ ms } := rfl

@[simp] theorem State.levelled_pending (f : Feeder) (s : State) : (s.levelled f).pending = s.pending := rfl
@[simp] theorem State.levelled_phase (f : Feeder) (s : State) : (s.levelled f).phase = s.phase := rfl
@[simp] theorem State.levelled_pins (f : Feeder) (s : State) : (s.levelled f).pins = s.pins := rfl
@[simp] theorem State.levelled_ring (f : Feeder) (s : State) : (s.levelled f).ring = s.ring := rfl
@[simp] theorem State.levelled_lineMap (f : Feeder) (s : State) : (s.levelled f).lineMap = s.lineMap := rfl
@[simp] theorem State.levelled_titles (f : Feeder) (s : State) : (s.levelled f).titles = s.titles := rfl
@[simp] theorem State.levelled_ccu (f : Feeder) (s : State) : (s.levelled f).ccu = s.ccu := rfl
@[simp] theorem State.levelled_dose (f : Feeder) (s : State) : (s.levelled f).dose = s.dose := rfl
@[simp] theorem State.levelled_queues (f : Feeder) (s : State) : (s.levelled f).queues = s.queues := rfl
@[simp] theorem State.levelled_cycles (f : Feeder) (s : State) : (s.levelled f).cycles = s.cycles := rfl
@[simp] theorem State.levelled_limits (f : Feeder) (s : State) : (s.levelled f).limits = s.limits := rfl
@[simp] theorem State.levelled_totals (f : Feeder) (s : State) : (s.levelled f).totals = s.totals := rfl
@[simp] theorem State.levelled_profiles (f : Feeder) (s : State) : (s.levelled f).profiles = s.profiles := rfl
@[simp] theorem State.levelled_iron (f : Feeder) (s : State) : (s.levelled f).iron = s.iron := rfl
@[simp] theorem State.levelled_rc (f : Feeder) (s : State) : (s.levelled f).rc = s.rc := rfl
@[simp] theorem State.levelled_mu (f : Feeder) (s : State) : (s.levelled f).mu = s.mu := rfl
@[simp] theorem State.levelled_store (f : Feeder) (s : State) : (s.levelled f).store = s.store := rfl
@[simp] theorem State.levelled_feed (f : Feeder) (s : State) : (s.levelled f).feed = s.feed.set (computedLevel s f) f := rfl

/-! ### Updates of an event in progress -/

@[simp] theorem logAlert_pending (code : AlertCode) (stage : Byte) (serial : Serial) (key : TitleKey) (detail : Word) (e : Ev) : (logAlert code stage serial key detail e).s.pending = e.s.pending := rfl
@[simp] theorem logAlert_phase (code : AlertCode) (stage : Byte) (serial : Serial) (key : TitleKey) (detail : Word) (e : Ev) : (logAlert code stage serial key detail e).s.phase = e.s.phase := rfl
@[simp] theorem logAlert_pins (code : AlertCode) (stage : Byte) (serial : Serial) (key : TitleKey) (detail : Word) (e : Ev) : (logAlert code stage serial key detail e).s.pins = e.s.pins := rfl
@[simp] theorem logAlert_ring (code : AlertCode) (stage : Byte) (serial : Serial) (key : TitleKey) (detail : Word) (e : Ev) : (logAlert code stage serial key detail e).s.ring = e.s.ring := rfl
@[simp] theorem logAlert_lineMap (code : AlertCode) (stage : Byte) (serial : Serial) (key : TitleKey) (detail : Word) (e : Ev) : (logAlert code stage serial key detail e).s.lineMap = e.s.lineMap := rfl
@[simp] theorem logAlert_titles (code : AlertCode) (stage : Byte) (serial : Serial) (key : TitleKey) (detail : Word) (e : Ev) : (logAlert code stage serial key detail e).s.titles = e.s.titles := rfl
@[simp] theorem logAlert_ccu (code : AlertCode) (stage : Byte) (serial : Serial) (key : TitleKey) (detail : Word) (e : Ev) : (logAlert code stage serial key detail e).s.ccu = e.s.ccu := rfl
@[simp] theorem logAlert_dose (code : AlertCode) (stage : Byte) (serial : Serial) (key : TitleKey) (detail : Word) (e : Ev) : (logAlert code stage serial key detail e).s.dose = e.s.dose := rfl
@[simp] theorem logAlert_queues (code : AlertCode) (stage : Byte) (serial : Serial) (key : TitleKey) (detail : Word) (e : Ev) : (logAlert code stage serial key detail e).s.queues = e.s.queues := rfl
@[simp] theorem logAlert_cycles (code : AlertCode) (stage : Byte) (serial : Serial) (key : TitleKey) (detail : Word) (e : Ev) : (logAlert code stage serial key detail e).s.cycles = e.s.cycles := rfl
@[simp] theorem logAlert_limits (code : AlertCode) (stage : Byte) (serial : Serial) (key : TitleKey) (detail : Word) (e : Ev) : (logAlert code stage serial key detail e).s.limits = e.s.limits := rfl
@[simp] theorem logAlert_feed (code : AlertCode) (stage : Byte) (serial : Serial) (key : TitleKey) (detail : Word) (e : Ev) : (logAlert code stage serial key detail e).s.feed = e.s.feed := rfl
@[simp] theorem logAlert_totals (code : AlertCode) (stage : Byte) (serial : Serial) (key : TitleKey) (detail : Word) (e : Ev) : (logAlert code stage serial key detail e).s.totals = e.s.totals := rfl
@[simp] theorem logAlert_profiles (code : AlertCode) (stage : Byte) (serial : Serial) (key : TitleKey) (detail : Word) (e : Ev) : (logAlert code stage serial key detail e).s.profiles = e.s.profiles := rfl
@[simp] theorem logAlert_iron (code : AlertCode) (stage : Byte) (serial : Serial) (key : TitleKey) (detail : Word) (e : Ev) : (logAlert code stage serial key detail e).s.iron = e.s.iron := rfl
@[simp] theorem logAlert_rc (code : AlertCode) (stage : Byte) (serial : Serial) (key : TitleKey) (detail : Word) (e : Ev) : (logAlert code stage serial key detail e).s.rc = e.s.rc := rfl
@[simp] theorem logAlert_store (code : AlertCode) (stage : Byte) (serial : Serial) (key : TitleKey) (detail : Word) (e : Ev) : (logAlert code stage serial key detail e).s.store = e.s.store := rfl
@[simp] theorem logAlert_mu (code : AlertCode) (stage : Byte) (serial : Serial) (key : TitleKey) (detail : Word) (e : Ev) : (logAlert code stage serial key detail e).s.mu = e.s.mu.logged ⟨code, stage, serial, key, e.s.cycles.stamp, detail⟩ := rfl
@[simp] theorem logAlert_feeds (code : AlertCode) (stage : Byte) (serial : Serial) (key : TitleKey) (detail : Word) (e : Ev) : (logAlert code stage serial key detail e).feeds = e.feeds := rfl
@[simp] theorem logAlert_alertsDue (code : AlertCode) (stage : Byte) (serial : Serial) (key : TitleKey) (detail : Word) (e : Ev) : (logAlert code stage serial key detail e).alertsDue = if e.s.mu.log = [] then e.alertsDue + 1 else e.alertsDue := rfl

@[simp] theorem formFeed_pending (f : Feeder) (v : FeedLevel) (e : Ev) : (formFeed f v e).s.pending = e.s.pending := rfl
@[simp] theorem formFeed_phase (f : Feeder) (v : FeedLevel) (e : Ev) : (formFeed f v e).s.phase = e.s.phase := rfl
@[simp] theorem formFeed_pins (f : Feeder) (v : FeedLevel) (e : Ev) : (formFeed f v e).s.pins = e.s.pins := rfl
@[simp] theorem formFeed_ring (f : Feeder) (v : FeedLevel) (e : Ev) : (formFeed f v e).s.ring = e.s.ring := rfl
@[simp] theorem formFeed_lineMap (f : Feeder) (v : FeedLevel) (e : Ev) : (formFeed f v e).s.lineMap = e.s.lineMap := rfl
@[simp] theorem formFeed_titles (f : Feeder) (v : FeedLevel) (e : Ev) : (formFeed f v e).s.titles = e.s.titles := rfl
@[simp] theorem formFeed_ccu (f : Feeder) (v : FeedLevel) (e : Ev) : (formFeed f v e).s.ccu = e.s.ccu := rfl
@[simp] theorem formFeed_dose (f : Feeder) (v : FeedLevel) (e : Ev) : (formFeed f v e).s.dose = e.s.dose := rfl
@[simp] theorem formFeed_queues (f : Feeder) (v : FeedLevel) (e : Ev) : (formFeed f v e).s.queues = e.s.queues := rfl
@[simp] theorem formFeed_cycles (f : Feeder) (v : FeedLevel) (e : Ev) : (formFeed f v e).s.cycles = e.s.cycles := rfl
@[simp] theorem formFeed_limits (f : Feeder) (v : FeedLevel) (e : Ev) : (formFeed f v e).s.limits = e.s.limits := rfl
@[simp] theorem formFeed_totals (f : Feeder) (v : FeedLevel) (e : Ev) : (formFeed f v e).s.totals = e.s.totals := rfl
@[simp] theorem formFeed_profiles (f : Feeder) (v : FeedLevel) (e : Ev) : (formFeed f v e).s.profiles = e.s.profiles := rfl
@[simp] theorem formFeed_iron (f : Feeder) (v : FeedLevel) (e : Ev) : (formFeed f v e).s.iron = e.s.iron := rfl
@[simp] theorem formFeed_rc (f : Feeder) (v : FeedLevel) (e : Ev) : (formFeed f v e).s.rc = e.s.rc := rfl
@[simp] theorem formFeed_mu (f : Feeder) (v : FeedLevel) (e : Ev) : (formFeed f v e).s.mu = e.s.mu := rfl
@[simp] theorem formFeed_store (f : Feeder) (v : FeedLevel) (e : Ev) : (formFeed f v e).s.store = e.s.store := rfl
@[simp] theorem formFeed_feed (f : Feeder) (v : FeedLevel) (e : Ev) : (formFeed f v e).s.feed = e.s.feed.set v f := rfl
@[simp] theorem formFeed_feeds (f : Feeder) (v : FeedLevel) (e : Ev) : (formFeed f v e).feeds = e.feeds ++ [(f, v)] := rfl
@[simp] theorem formFeed_alertsDue (f : Feeder) (v : FeedLevel) (e : Ev) : (formFeed f v e).alertsDue = e.alertsDue := rfl

@[simp] theorem setRing_pending (r : RingPort) (e : Ev) : (setRing r e).s.pending = e.s.pending := rfl
@[simp] theorem setRing_phase (r : RingPort) (e : Ev) : (setRing r e).s.phase = e.s.phase := rfl
@[simp] theorem setRing_pins (r : RingPort) (e : Ev) : (setRing r e).s.pins = e.s.pins := rfl
@[simp] theorem setRing_lineMap (r : RingPort) (e : Ev) : (setRing r e).s.lineMap = e.s.lineMap := rfl
@[simp] theorem setRing_titles (r : RingPort) (e : Ev) : (setRing r e).s.titles = e.s.titles := rfl
@[simp] theorem setRing_ccu (r : RingPort) (e : Ev) : (setRing r e).s.ccu = e.s.ccu := rfl
@[simp] theorem setRing_dose (r : RingPort) (e : Ev) : (setRing r e).s.dose = e.s.dose := rfl
@[simp] theorem setRing_queues (r : RingPort) (e : Ev) : (setRing r e).s.queues = e.s.queues := rfl
@[simp] theorem setRing_cycles (r : RingPort) (e : Ev) : (setRing r e).s.cycles = e.s.cycles := rfl
@[simp] theorem setRing_limits (r : RingPort) (e : Ev) : (setRing r e).s.limits = e.s.limits := rfl
@[simp] theorem setRing_feed (r : RingPort) (e : Ev) : (setRing r e).s.feed = e.s.feed := rfl
@[simp] theorem setRing_totals (r : RingPort) (e : Ev) : (setRing r e).s.totals = e.s.totals := rfl
@[simp] theorem setRing_profiles (r : RingPort) (e : Ev) : (setRing r e).s.profiles = e.s.profiles := rfl
@[simp] theorem setRing_iron (r : RingPort) (e : Ev) : (setRing r e).s.iron = e.s.iron := rfl
@[simp] theorem setRing_rc (r : RingPort) (e : Ev) : (setRing r e).s.rc = e.s.rc := rfl
@[simp] theorem setRing_mu (r : RingPort) (e : Ev) : (setRing r e).s.mu = e.s.mu := rfl
@[simp] theorem setRing_store (r : RingPort) (e : Ev) : (setRing r e).s.store = e.s.store := rfl
@[simp] theorem setRing_ring (r : RingPort) (e : Ev) : (setRing r e).s.ring = r := rfl
@[simp] theorem setRing_feeds (r : RingPort) (e : Ev) : (setRing r e).feeds = e.feeds := rfl
@[simp] theorem setRing_alertsDue (r : RingPort) (e : Ev) : (setRing r e).alertsDue = e.alertsDue := rfl

@[simp] theorem setBq_pending (q : List BlockEntry) (e : Ev) : (setBq q e).s.pending = e.s.pending := rfl
@[simp] theorem setBq_phase (q : List BlockEntry) (e : Ev) : (setBq q e).s.phase = e.s.phase := rfl
@[simp] theorem setBq_pins (q : List BlockEntry) (e : Ev) : (setBq q e).s.pins = e.s.pins := rfl
@[simp] theorem setBq_ring (q : List BlockEntry) (e : Ev) : (setBq q e).s.ring = e.s.ring := rfl
@[simp] theorem setBq_lineMap (q : List BlockEntry) (e : Ev) : (setBq q e).s.lineMap = e.s.lineMap := rfl
@[simp] theorem setBq_titles (q : List BlockEntry) (e : Ev) : (setBq q e).s.titles = e.s.titles := rfl
@[simp] theorem setBq_ccu (q : List BlockEntry) (e : Ev) : (setBq q e).s.ccu = e.s.ccu := rfl
@[simp] theorem setBq_dose (q : List BlockEntry) (e : Ev) : (setBq q e).s.dose = e.s.dose := rfl
@[simp] theorem setBq_cycles (q : List BlockEntry) (e : Ev) : (setBq q e).s.cycles = e.s.cycles := rfl
@[simp] theorem setBq_limits (q : List BlockEntry) (e : Ev) : (setBq q e).s.limits = e.s.limits := rfl
@[simp] theorem setBq_feed (q : List BlockEntry) (e : Ev) : (setBq q e).s.feed = e.s.feed := rfl
@[simp] theorem setBq_totals (q : List BlockEntry) (e : Ev) : (setBq q e).s.totals = e.s.totals := rfl
@[simp] theorem setBq_profiles (q : List BlockEntry) (e : Ev) : (setBq q e).s.profiles = e.s.profiles := rfl
@[simp] theorem setBq_iron (q : List BlockEntry) (e : Ev) : (setBq q e).s.iron = e.s.iron := rfl
@[simp] theorem setBq_rc (q : List BlockEntry) (e : Ev) : (setBq q e).s.rc = e.s.rc := rfl
@[simp] theorem setBq_mu (q : List BlockEntry) (e : Ev) : (setBq q e).s.mu = e.s.mu := rfl
@[simp] theorem setBq_store (q : List BlockEntry) (e : Ev) : (setBq q e).s.store = e.s.store := rfl
@[simp] theorem setBq_queues (q : List BlockEntry) (e : Ev) : (setBq q e).s.queues = { e.s.queues with bq := q } := rfl
@[simp] theorem setBq_feeds (q : List BlockEntry) (e : Ev) : (setBq q e).feeds = e.feeds := rfl
@[simp] theorem setBq_alertsDue (q : List BlockEntry) (e : Ev) : (setBq q e).alertsDue = e.alertsDue := rfl

@[simp] theorem setCq_pending (q : List CaseEntry) (e : Ev) : (setCq q e).s.pending = e.s.pending := rfl
@[simp] theorem setCq_phase (q : List CaseEntry) (e : Ev) : (setCq q e).s.phase = e.s.phase := rfl
@[simp] theorem setCq_pins (q : List CaseEntry) (e : Ev) : (setCq q e).s.pins = e.s.pins := rfl
@[simp] theorem setCq_ring (q : List CaseEntry) (e : Ev) : (setCq q e).s.ring = e.s.ring := rfl
@[simp] theorem setCq_lineMap (q : List CaseEntry) (e : Ev) : (setCq q e).s.lineMap = e.s.lineMap := rfl
@[simp] theorem setCq_titles (q : List CaseEntry) (e : Ev) : (setCq q e).s.titles = e.s.titles := rfl
@[simp] theorem setCq_ccu (q : List CaseEntry) (e : Ev) : (setCq q e).s.ccu = e.s.ccu := rfl
@[simp] theorem setCq_dose (q : List CaseEntry) (e : Ev) : (setCq q e).s.dose = e.s.dose := rfl
@[simp] theorem setCq_cycles (q : List CaseEntry) (e : Ev) : (setCq q e).s.cycles = e.s.cycles := rfl
@[simp] theorem setCq_limits (q : List CaseEntry) (e : Ev) : (setCq q e).s.limits = e.s.limits := rfl
@[simp] theorem setCq_feed (q : List CaseEntry) (e : Ev) : (setCq q e).s.feed = e.s.feed := rfl
@[simp] theorem setCq_totals (q : List CaseEntry) (e : Ev) : (setCq q e).s.totals = e.s.totals := rfl
@[simp] theorem setCq_profiles (q : List CaseEntry) (e : Ev) : (setCq q e).s.profiles = e.s.profiles := rfl
@[simp] theorem setCq_iron (q : List CaseEntry) (e : Ev) : (setCq q e).s.iron = e.s.iron := rfl
@[simp] theorem setCq_rc (q : List CaseEntry) (e : Ev) : (setCq q e).s.rc = e.s.rc := rfl
@[simp] theorem setCq_mu (q : List CaseEntry) (e : Ev) : (setCq q e).s.mu = e.s.mu := rfl
@[simp] theorem setCq_store (q : List CaseEntry) (e : Ev) : (setCq q e).s.store = e.s.store := rfl
@[simp] theorem setCq_queues (q : List CaseEntry) (e : Ev) : (setCq q e).s.queues = { e.s.queues with cq := q } := rfl
@[simp] theorem setCq_feeds (q : List CaseEntry) (e : Ev) : (setCq q e).feeds = e.feeds := rfl
@[simp] theorem setCq_alertsDue (q : List CaseEntry) (e : Ev) : (setCq q e).alertsDue = e.alertsDue := rfl

@[simp] theorem setJq_pending (q : List JacketEntry) (e : Ev) : (setJq q e).s.pending = e.s.pending := rfl
@[simp] theorem setJq_phase (q : List JacketEntry) (e : Ev) : (setJq q e).s.phase = e.s.phase := rfl
@[simp] theorem setJq_pins (q : List JacketEntry) (e : Ev) : (setJq q e).s.pins = e.s.pins := rfl
@[simp] theorem setJq_ring (q : List JacketEntry) (e : Ev) : (setJq q e).s.ring = e.s.ring := rfl
@[simp] theorem setJq_lineMap (q : List JacketEntry) (e : Ev) : (setJq q e).s.lineMap = e.s.lineMap := rfl
@[simp] theorem setJq_titles (q : List JacketEntry) (e : Ev) : (setJq q e).s.titles = e.s.titles := rfl
@[simp] theorem setJq_ccu (q : List JacketEntry) (e : Ev) : (setJq q e).s.ccu = e.s.ccu := rfl
@[simp] theorem setJq_dose (q : List JacketEntry) (e : Ev) : (setJq q e).s.dose = e.s.dose := rfl
@[simp] theorem setJq_cycles (q : List JacketEntry) (e : Ev) : (setJq q e).s.cycles = e.s.cycles := rfl
@[simp] theorem setJq_limits (q : List JacketEntry) (e : Ev) : (setJq q e).s.limits = e.s.limits := rfl
@[simp] theorem setJq_feed (q : List JacketEntry) (e : Ev) : (setJq q e).s.feed = e.s.feed := rfl
@[simp] theorem setJq_totals (q : List JacketEntry) (e : Ev) : (setJq q e).s.totals = e.s.totals := rfl
@[simp] theorem setJq_profiles (q : List JacketEntry) (e : Ev) : (setJq q e).s.profiles = e.s.profiles := rfl
@[simp] theorem setJq_iron (q : List JacketEntry) (e : Ev) : (setJq q e).s.iron = e.s.iron := rfl
@[simp] theorem setJq_rc (q : List JacketEntry) (e : Ev) : (setJq q e).s.rc = e.s.rc := rfl
@[simp] theorem setJq_mu (q : List JacketEntry) (e : Ev) : (setJq q e).s.mu = e.s.mu := rfl
@[simp] theorem setJq_store (q : List JacketEntry) (e : Ev) : (setJq q e).s.store = e.s.store := rfl
@[simp] theorem setJq_queues (q : List JacketEntry) (e : Ev) : (setJq q e).s.queues = { e.s.queues with jq := q } := rfl
@[simp] theorem setJq_feeds (q : List JacketEntry) (e : Ev) : (setJq q e).feeds = e.feeds := rfl
@[simp] theorem setJq_alertsDue (q : List JacketEntry) (e : Ev) : (setJq q e).alertsDue = e.alertsDue := rfl

@[simp] theorem setTq_pending (q : List BookRecord) (e : Ev) : (setTq q e).s.pending = e.s.pending := rfl
@[simp] theorem setTq_phase (q : List BookRecord) (e : Ev) : (setTq q e).s.phase = e.s.phase := rfl
@[simp] theorem setTq_pins (q : List BookRecord) (e : Ev) : (setTq q e).s.pins = e.s.pins := rfl
@[simp] theorem setTq_ring (q : List BookRecord) (e : Ev) : (setTq q e).s.ring = e.s.ring := rfl
@[simp] theorem setTq_lineMap (q : List BookRecord) (e : Ev) : (setTq q e).s.lineMap = e.s.lineMap := rfl
@[simp] theorem setTq_titles (q : List BookRecord) (e : Ev) : (setTq q e).s.titles = e.s.titles := rfl
@[simp] theorem setTq_ccu (q : List BookRecord) (e : Ev) : (setTq q e).s.ccu = e.s.ccu := rfl
@[simp] theorem setTq_dose (q : List BookRecord) (e : Ev) : (setTq q e).s.dose = e.s.dose := rfl
@[simp] theorem setTq_cycles (q : List BookRecord) (e : Ev) : (setTq q e).s.cycles = e.s.cycles := rfl
@[simp] theorem setTq_limits (q : List BookRecord) (e : Ev) : (setTq q e).s.limits = e.s.limits := rfl
@[simp] theorem setTq_feed (q : List BookRecord) (e : Ev) : (setTq q e).s.feed = e.s.feed := rfl
@[simp] theorem setTq_totals (q : List BookRecord) (e : Ev) : (setTq q e).s.totals = e.s.totals := rfl
@[simp] theorem setTq_profiles (q : List BookRecord) (e : Ev) : (setTq q e).s.profiles = e.s.profiles := rfl
@[simp] theorem setTq_iron (q : List BookRecord) (e : Ev) : (setTq q e).s.iron = e.s.iron := rfl
@[simp] theorem setTq_rc (q : List BookRecord) (e : Ev) : (setTq q e).s.rc = e.s.rc := rfl
@[simp] theorem setTq_mu (q : List BookRecord) (e : Ev) : (setTq q e).s.mu = e.s.mu := rfl
@[simp] theorem setTq_store (q : List BookRecord) (e : Ev) : (setTq q e).s.store = e.s.store := rfl
@[simp] theorem setTq_queues (q : List BookRecord) (e : Ev) : (setTq q e).s.queues = { e.s.queues with tq := q } := rfl
@[simp] theorem setTq_feeds (q : List BookRecord) (e : Ev) : (setTq q e).feeds = e.feeds := rfl
@[simp] theorem setTq_alertsDue (q : List BookRecord) (e : Ev) : (setTq q e).alertsDue = e.alertsDue := rfl

@[simp] theorem setPt_pending (q : PressTrain) (e : Ev) : (setPt q e).s.pending = e.s.pending := rfl
@[simp] theorem setPt_phase (q : PressTrain) (e : Ev) : (setPt q e).s.phase = e.s.phase := rfl
@[simp] theorem setPt_pins (q : PressTrain) (e : Ev) : (setPt q e).s.pins = e.s.pins := rfl
@[simp] theorem setPt_ring (q : PressTrain) (e : Ev) : (setPt q e).s.ring = e.s.ring := rfl
@[simp] theorem setPt_lineMap (q : PressTrain) (e : Ev) : (setPt q e).s.lineMap = e.s.lineMap := rfl
@[simp] theorem setPt_titles (q : PressTrain) (e : Ev) : (setPt q e).s.titles = e.s.titles := rfl
@[simp] theorem setPt_ccu (q : PressTrain) (e : Ev) : (setPt q e).s.ccu = e.s.ccu := rfl
@[simp] theorem setPt_dose (q : PressTrain) (e : Ev) : (setPt q e).s.dose = e.s.dose := rfl
@[simp] theorem setPt_cycles (q : PressTrain) (e : Ev) : (setPt q e).s.cycles = e.s.cycles := rfl
@[simp] theorem setPt_limits (q : PressTrain) (e : Ev) : (setPt q e).s.limits = e.s.limits := rfl
@[simp] theorem setPt_feed (q : PressTrain) (e : Ev) : (setPt q e).s.feed = e.s.feed := rfl
@[simp] theorem setPt_totals (q : PressTrain) (e : Ev) : (setPt q e).s.totals = e.s.totals := rfl
@[simp] theorem setPt_profiles (q : PressTrain) (e : Ev) : (setPt q e).s.profiles = e.s.profiles := rfl
@[simp] theorem setPt_iron (q : PressTrain) (e : Ev) : (setPt q e).s.iron = e.s.iron := rfl
@[simp] theorem setPt_rc (q : PressTrain) (e : Ev) : (setPt q e).s.rc = e.s.rc := rfl
@[simp] theorem setPt_mu (q : PressTrain) (e : Ev) : (setPt q e).s.mu = e.s.mu := rfl
@[simp] theorem setPt_store (q : PressTrain) (e : Ev) : (setPt q e).s.store = e.s.store := rfl
@[simp] theorem setPt_queues (q : PressTrain) (e : Ev) : (setPt q e).s.queues = { e.s.queues with pt := q } := rfl
@[simp] theorem setPt_feeds (q : PressTrain) (e : Ev) : (setPt q e).feeds = e.feeds := rfl
@[simp] theorem setPt_alertsDue (q : PressTrain) (e : Ev) : (setPt q e).alertsDue = e.alertsDue := rfl

@[simp] theorem setAq_pending (q : List BookRecord) (e : Ev) : (setAq q e).s.pending = e.s.pending := rfl
@[simp] theorem setAq_phase (q : List BookRecord) (e : Ev) : (setAq q e).s.phase = e.s.phase := rfl
@[simp] theorem setAq_pins (q : List BookRecord) (e : Ev) : (setAq q e).s.pins = e.s.pins := rfl
@[simp] theorem setAq_ring (q : List BookRecord) (e : Ev) : (setAq q e).s.ring = e.s.ring := rfl
@[simp] theorem setAq_lineMap (q : List BookRecord) (e : Ev) : (setAq q e).s.lineMap = e.s.lineMap := rfl
@[simp] theorem setAq_titles (q : List BookRecord) (e : Ev) : (setAq q e).s.titles = e.s.titles := rfl
@[simp] theorem setAq_ccu (q : List BookRecord) (e : Ev) : (setAq q e).s.ccu = e.s.ccu := rfl
@[simp] theorem setAq_dose (q : List BookRecord) (e : Ev) : (setAq q e).s.dose = e.s.dose := rfl
@[simp] theorem setAq_cycles (q : List BookRecord) (e : Ev) : (setAq q e).s.cycles = e.s.cycles := rfl
@[simp] theorem setAq_limits (q : List BookRecord) (e : Ev) : (setAq q e).s.limits = e.s.limits := rfl
@[simp] theorem setAq_feed (q : List BookRecord) (e : Ev) : (setAq q e).s.feed = e.s.feed := rfl
@[simp] theorem setAq_totals (q : List BookRecord) (e : Ev) : (setAq q e).s.totals = e.s.totals := rfl
@[simp] theorem setAq_profiles (q : List BookRecord) (e : Ev) : (setAq q e).s.profiles = e.s.profiles := rfl
@[simp] theorem setAq_iron (q : List BookRecord) (e : Ev) : (setAq q e).s.iron = e.s.iron := rfl
@[simp] theorem setAq_rc (q : List BookRecord) (e : Ev) : (setAq q e).s.rc = e.s.rc := rfl
@[simp] theorem setAq_mu (q : List BookRecord) (e : Ev) : (setAq q e).s.mu = e.s.mu := rfl
@[simp] theorem setAq_store (q : List BookRecord) (e : Ev) : (setAq q e).s.store = e.s.store := rfl
@[simp] theorem setAq_queues (q : List BookRecord) (e : Ev) : (setAq q e).s.queues = { e.s.queues with aq := q } := rfl
@[simp] theorem setAq_feeds (q : List BookRecord) (e : Ev) : (setAq q e).feeds = e.feeds := rfl
@[simp] theorem setAq_alertsDue (q : List BookRecord) (e : Ev) : (setAq q e).alertsDue = e.alertsDue := rfl

@[simp] theorem enqueue_pending (q : Queues) (i : ItemType) (e : Ev) : (enqueue q i e).s.pending = e.s.pending := rfl
@[simp] theorem enqueue_phase (q : Queues) (i : ItemType) (e : Ev) : (enqueue q i e).s.phase = e.s.phase := rfl
@[simp] theorem enqueue_pins (q : Queues) (i : ItemType) (e : Ev) : (enqueue q i e).s.pins = e.s.pins := rfl
@[simp] theorem enqueue_ring (q : Queues) (i : ItemType) (e : Ev) : (enqueue q i e).s.ring = e.s.ring := rfl
@[simp] theorem enqueue_lineMap (q : Queues) (i : ItemType) (e : Ev) : (enqueue q i e).s.lineMap = e.s.lineMap := rfl
@[simp] theorem enqueue_titles (q : Queues) (i : ItemType) (e : Ev) : (enqueue q i e).s.titles = e.s.titles := rfl
@[simp] theorem enqueue_ccu (q : Queues) (i : ItemType) (e : Ev) : (enqueue q i e).s.ccu = e.s.ccu := rfl
@[simp] theorem enqueue_dose (q : Queues) (i : ItemType) (e : Ev) : (enqueue q i e).s.dose = e.s.dose := rfl
@[simp] theorem enqueue_cycles (q : Queues) (i : ItemType) (e : Ev) : (enqueue q i e).s.cycles = e.s.cycles := rfl
@[simp] theorem enqueue_limits (q : Queues) (i : ItemType) (e : Ev) : (enqueue q i e).s.limits = e.s.limits := rfl
@[simp] theorem enqueue_feed (q : Queues) (i : ItemType) (e : Ev) : (enqueue q i e).s.feed = e.s.feed := rfl
@[simp] theorem enqueue_profiles (q : Queues) (i : ItemType) (e : Ev) : (enqueue q i e).s.profiles = e.s.profiles := rfl
@[simp] theorem enqueue_iron (q : Queues) (i : ItemType) (e : Ev) : (enqueue q i e).s.iron = e.s.iron := rfl
@[simp] theorem enqueue_rc (q : Queues) (i : ItemType) (e : Ev) : (enqueue q i e).s.rc = e.s.rc := rfl
@[simp] theorem enqueue_mu (q : Queues) (i : ItemType) (e : Ev) : (enqueue q i e).s.mu = e.s.mu := rfl
@[simp] theorem enqueue_store (q : Queues) (i : ItemType) (e : Ev) : (enqueue q i e).s.store = e.s.store := rfl
@[simp] theorem enqueue_queues (q : Queues) (i : ItemType) (e : Ev) : (enqueue q i e).s.queues = q := rfl
@[simp] theorem enqueue_totals (q : Queues) (i : ItemType) (e : Ev) : (enqueue q i e).s.totals = e.s.totals.sighted i := rfl
@[simp] theorem enqueue_feeds (q : Queues) (i : ItemType) (e : Ev) : (enqueue q i e).feeds = e.feeds := rfl
@[simp] theorem enqueue_alertsDue (q : Queues) (i : ItemType) (e : Ev) : (enqueue q i e).alertsDue = e.alertsDue := rfl

@[simp] theorem countTallies_pending (ys : List Tally) (e : Ev) : (countTallies ys e).s.pending = e.s.pending := rfl
@[simp] theorem countTallies_phase (ys : List Tally) (e : Ev) : (countTallies ys e).s.phase = e.s.phase := rfl
@[simp] theorem countTallies_pins (ys : List Tally) (e : Ev) : (countTallies ys e).s.pins = e.s.pins := rfl
@[simp] theorem countTallies_ring (ys : List Tally) (e : Ev) : (countTallies ys e).s.ring = e.s.ring := rfl
@[simp] theorem countTallies_lineMap (ys : List Tally) (e : Ev) : (countTallies ys e).s.lineMap = e.s.lineMap := rfl
@[simp] theorem countTallies_titles (ys : List Tally) (e : Ev) : (countTallies ys e).s.titles = e.s.titles := rfl
@[simp] theorem countTallies_ccu (ys : List Tally) (e : Ev) : (countTallies ys e).s.ccu = e.s.ccu := rfl
@[simp] theorem countTallies_dose (ys : List Tally) (e : Ev) : (countTallies ys e).s.dose = e.s.dose := rfl
@[simp] theorem countTallies_queues (ys : List Tally) (e : Ev) : (countTallies ys e).s.queues = e.s.queues := rfl
@[simp] theorem countTallies_cycles (ys : List Tally) (e : Ev) : (countTallies ys e).s.cycles = e.s.cycles := rfl
@[simp] theorem countTallies_limits (ys : List Tally) (e : Ev) : (countTallies ys e).s.limits = e.s.limits := rfl
@[simp] theorem countTallies_feed (ys : List Tally) (e : Ev) : (countTallies ys e).s.feed = e.s.feed := rfl
@[simp] theorem countTallies_profiles (ys : List Tally) (e : Ev) : (countTallies ys e).s.profiles = e.s.profiles := rfl
@[simp] theorem countTallies_iron (ys : List Tally) (e : Ev) : (countTallies ys e).s.iron = e.s.iron := rfl
@[simp] theorem countTallies_rc (ys : List Tally) (e : Ev) : (countTallies ys e).s.rc = e.s.rc := rfl
@[simp] theorem countTallies_mu (ys : List Tally) (e : Ev) : (countTallies ys e).s.mu = e.s.mu := rfl
@[simp] theorem countTallies_store (ys : List Tally) (e : Ev) : (countTallies ys e).s.store = e.s.store := rfl
@[simp] theorem countTallies_totals (ys : List Tally) (e : Ev) : (countTallies ys e).s.totals = e.s.totals.talliedAll ys := rfl
@[simp] theorem countTallies_feeds (ys : List Tally) (e : Ev) : (countTallies ys e).feeds = e.feeds := rfl
@[simp] theorem countTallies_alertsDue (ys : List Tally) (e : Ev) : (countTallies ys e).alertsDue = e.alertsDue := rfl

@[simp] theorem enterConfig_pending  (e : Ev) : (enterConfig e).s.pending = e.s.pending := rfl
@[simp] theorem enterConfig_phase  (e : Ev) : (enterConfig e).s.phase = e.s.phase := rfl
@[simp] theorem enterConfig_pins  (e : Ev) : (enterConfig e).s.pins = e.s.pins := rfl
@[simp] theorem enterConfig_ring  (e : Ev) : (enterConfig e).s.ring = e.s.ring := rfl
@[simp] theorem enterConfig_lineMap  (e : Ev) : (enterConfig e).s.lineMap = e.s.lineMap := rfl
@[simp] theorem enterConfig_titles  (e : Ev) : (enterConfig e).s.titles = e.s.titles := rfl
@[simp] theorem enterConfig_ccu  (e : Ev) : (enterConfig e).s.ccu = e.s.ccu := rfl
@[simp] theorem enterConfig_dose  (e : Ev) : (enterConfig e).s.dose = e.s.dose := rfl
@[simp] theorem enterConfig_queues  (e : Ev) : (enterConfig e).s.queues = e.s.queues := rfl
@[simp] theorem enterConfig_cycles  (e : Ev) : (enterConfig e).s.cycles = e.s.cycles := rfl
@[simp] theorem enterConfig_limits  (e : Ev) : (enterConfig e).s.limits = e.s.limits := rfl
@[simp] theorem enterConfig_feed  (e : Ev) : (enterConfig e).s.feed = e.s.feed := rfl
@[simp] theorem enterConfig_totals  (e : Ev) : (enterConfig e).s.totals = e.s.totals := rfl
@[simp] theorem enterConfig_profiles  (e : Ev) : (enterConfig e).s.profiles = e.s.profiles := rfl
@[simp] theorem enterConfig_iron  (e : Ev) : (enterConfig e).s.iron = e.s.iron := rfl
@[simp] theorem enterConfig_mu  (e : Ev) : (enterConfig e).s.mu = e.s.mu := rfl
@[simp] theorem enterConfig_store  (e : Ev) : (enterConfig e).s.store = e.s.store := rfl
@[simp] theorem enterConfig_rc  (e : Ev) : (enterConfig e).s.rc = RunControl.config := rfl
@[simp] theorem enterConfig_feeds  (e : Ev) : (enterConfig e).feeds = e.feeds := rfl
@[simp] theorem enterConfig_alertsDue  (e : Ev) : (enterConfig e).alertsDue = e.alertsDue := rfl

@[simp] theorem enterRun_pending  (e : Ev) : (enterRun e).s.pending = e.s.pending := rfl
@[simp] theorem enterRun_phase  (e : Ev) : (enterRun e).s.phase = e.s.phase := rfl
@[simp] theorem enterRun_pins  (e : Ev) : (enterRun e).s.pins = e.s.pins := rfl
@[simp] theorem enterRun_ring  (e : Ev) : (enterRun e).s.ring = e.s.ring := rfl
@[simp] theorem enterRun_lineMap  (e : Ev) : (enterRun e).s.lineMap = e.s.lineMap := rfl
@[simp] theorem enterRun_titles  (e : Ev) : (enterRun e).s.titles = e.s.titles := rfl
@[simp] theorem enterRun_ccu  (e : Ev) : (enterRun e).s.ccu = e.s.ccu := rfl
@[simp] theorem enterRun_dose  (e : Ev) : (enterRun e).s.dose = e.s.dose := rfl
@[simp] theorem enterRun_queues  (e : Ev) : (enterRun e).s.queues = e.s.queues := rfl
@[simp] theorem enterRun_cycles  (e : Ev) : (enterRun e).s.cycles = e.s.cycles := rfl
@[simp] theorem enterRun_limits  (e : Ev) : (enterRun e).s.limits = e.s.limits := rfl
@[simp] theorem enterRun_feed  (e : Ev) : (enterRun e).s.feed = e.s.feed := rfl
@[simp] theorem enterRun_totals  (e : Ev) : (enterRun e).s.totals = e.s.totals := rfl
@[simp] theorem enterRun_profiles  (e : Ev) : (enterRun e).s.profiles = e.s.profiles := rfl
@[simp] theorem enterRun_iron  (e : Ev) : (enterRun e).s.iron = e.s.iron := rfl
@[simp] theorem enterRun_mu  (e : Ev) : (enterRun e).s.mu = e.s.mu := rfl
@[simp] theorem enterRun_store  (e : Ev) : (enterRun e).s.store = e.s.store := rfl
@[simp] theorem enterRun_rc  (e : Ev) : (enterRun e).s.rc = ⟨.run, CauseSet.empty, .released⟩ := rfl
@[simp] theorem enterRun_feeds  (e : Ev) : (enterRun e).feeds = e.feeds := rfl
@[simp] theorem enterRun_alertsDue  (e : Ev) : (enterRun e).alertsDue = e.alertsDue := rfl

@[simp] theorem enterDrain_pending  (e : Ev) : (enterDrain e).s.pending = e.s.pending := rfl
@[simp] theorem enterDrain_phase  (e : Ev) : (enterDrain e).s.phase = e.s.phase := rfl
@[simp] theorem enterDrain_pins  (e : Ev) : (enterDrain e).s.pins = e.s.pins := rfl
@[simp] theorem enterDrain_ring  (e : Ev) : (enterDrain e).s.ring = e.s.ring := rfl
@[simp] theorem enterDrain_lineMap  (e : Ev) : (enterDrain e).s.lineMap = e.s.lineMap := rfl
@[simp] theorem enterDrain_titles  (e : Ev) : (enterDrain e).s.titles = e.s.titles := rfl
@[simp] theorem enterDrain_ccu  (e : Ev) : (enterDrain e).s.ccu = e.s.ccu := rfl
@[simp] theorem enterDrain_dose  (e : Ev) : (enterDrain e).s.dose = e.s.dose := rfl
@[simp] theorem enterDrain_queues  (e : Ev) : (enterDrain e).s.queues = e.s.queues := rfl
@[simp] theorem enterDrain_cycles  (e : Ev) : (enterDrain e).s.cycles = e.s.cycles := rfl
@[simp] theorem enterDrain_limits  (e : Ev) : (enterDrain e).s.limits = e.s.limits := rfl
@[simp] theorem enterDrain_feed  (e : Ev) : (enterDrain e).s.feed = e.s.feed := rfl
@[simp] theorem enterDrain_totals  (e : Ev) : (enterDrain e).s.totals = e.s.totals := rfl
@[simp] theorem enterDrain_profiles  (e : Ev) : (enterDrain e).s.profiles = e.s.profiles := rfl
@[simp] theorem enterDrain_iron  (e : Ev) : (enterDrain e).s.iron = e.s.iron := rfl
@[simp] theorem enterDrain_mu  (e : Ev) : (enterDrain e).s.mu = e.s.mu := rfl
@[simp] theorem enterDrain_store  (e : Ev) : (enterDrain e).s.store = e.s.store := rfl
@[simp] theorem enterDrain_rc  (e : Ev) : (enterDrain e).s.rc = ⟨.drain, CauseSet.empty, .released⟩ := rfl
@[simp] theorem enterDrain_feeds  (e : Ev) : (enterDrain e).feeds = e.feeds := rfl
@[simp] theorem enterDrain_alertsDue  (e : Ev) : (enterDrain e).alertsDue = e.alertsDue := rfl

@[simp] theorem advanceStamp_pending  (e : Ev) : (advanceStamp e).s.pending = e.s.pending := rfl
@[simp] theorem advanceStamp_phase  (e : Ev) : (advanceStamp e).s.phase = e.s.phase := rfl
@[simp] theorem advanceStamp_pins  (e : Ev) : (advanceStamp e).s.pins = e.s.pins := rfl
@[simp] theorem advanceStamp_ring  (e : Ev) : (advanceStamp e).s.ring = e.s.ring := rfl
@[simp] theorem advanceStamp_lineMap  (e : Ev) : (advanceStamp e).s.lineMap = e.s.lineMap := rfl
@[simp] theorem advanceStamp_titles  (e : Ev) : (advanceStamp e).s.titles = e.s.titles := rfl
@[simp] theorem advanceStamp_ccu  (e : Ev) : (advanceStamp e).s.ccu = e.s.ccu := rfl
@[simp] theorem advanceStamp_dose  (e : Ev) : (advanceStamp e).s.dose = e.s.dose := rfl
@[simp] theorem advanceStamp_queues  (e : Ev) : (advanceStamp e).s.queues = e.s.queues := rfl
@[simp] theorem advanceStamp_limits  (e : Ev) : (advanceStamp e).s.limits = e.s.limits := rfl
@[simp] theorem advanceStamp_feed  (e : Ev) : (advanceStamp e).s.feed = e.s.feed := rfl
@[simp] theorem advanceStamp_totals  (e : Ev) : (advanceStamp e).s.totals = e.s.totals := rfl
@[simp] theorem advanceStamp_profiles  (e : Ev) : (advanceStamp e).s.profiles = e.s.profiles := rfl
@[simp] theorem advanceStamp_iron  (e : Ev) : (advanceStamp e).s.iron = e.s.iron := rfl
@[simp] theorem advanceStamp_rc  (e : Ev) : (advanceStamp e).s.rc = e.s.rc := rfl
@[simp] theorem advanceStamp_mu  (e : Ev) : (advanceStamp e).s.mu = e.s.mu := rfl
@[simp] theorem advanceStamp_store  (e : Ev) : (advanceStamp e).s.store = e.s.store := rfl
@[simp] theorem advanceStamp_cycles  (e : Ev) : (advanceStamp e).s.cycles = { e.s.cycles with stamp := e.s.cycles.stamp + 1 } := rfl
@[simp] theorem advanceStamp_feeds  (e : Ev) : (advanceStamp e).feeds = e.feeds := rfl
@[simp] theorem advanceStamp_alertsDue  (e : Ev) : (advanceStamp e).alertsDue = e.alertsDue := rfl

end Sys2Proof.Machine
end

