-- ==== Sys2Proof/Laws/Ops.lean ====
section
/-! SUPPORT. What the shared operations can do: every message handed over leaves a state that differs only in what
sending may change, and with room for them all the messages join the outbound queue in order. -/

namespace Sys2Proof.Machine

/-! ### The frame of sending -/

theorem State.sameButSending_refl (s : State) : s.sameButSending s := rfl

theorem State.sameButSending_trans {s t u : State} (h : s.sameButSending t) (k : t.sameButSending u) :
    s.sameButSending u := by
  unfold State.sameButSending at *
  rw [k, h]

/-- Whatever differs only in the transmitter, its queues, the proof run, the log, Run Control and the feed levels. -/
theorem State.sameButSending_of_eq {s t : State} (rp : RingPort) (m : Management) (c : RunControl) (f : FeedLevels)
    (hr : rp = { s.ring with
      outbound := rp.outbound, forward := rp.forward, tx := rp.tx, proofRun := rp.proofRun })
    (h : t = { s with ring := rp, mu := m, rc := c, feed := f }) : s.sameButSending t := by
  subst h
  unfold State.sameButSending
  simp only
  congr 1

theorem logAlert_same (code : AlertCode) (stage : Byte) (serial : Serial) (key : TitleKey) (detail : Word) (e : Ev) :
    e.s.sameButSending (logAlert code stage serial key detail e).s :=
  State.sameButSending_of_eq e.s.ring _ e.s.rc e.s.feed rfl rfl

theorem formFeed_same (f : Feeder) (v : FeedLevel) (e : Ev) : e.s.sameButSending (formFeed f v e).s :=
  State.sameButSending_of_eq e.s.ring e.s.mu e.s.rc _ rfl rfl

theorem formPauses_same (e : Ev) : e.s.sameButSending (formPauses e).s :=
  State.sameButSending_of_eq e.s.ring e.s.mu e.s.rc _ rfl rfl

theorem enterHalt_same (c : Cause) (e : Ev) : e.s.sameButSending (enterHalt c e).s :=
  State.sameButSending_of_eq e.s.ring _ _ e.s.feed rfl rfl

theorem raiseCause_same (c : Cause) (e : Ev) : e.s.sameButSending (raiseCause c e).s := by
  unfold raiseCause
  split
  · exact State.sameButSending_refl _
  · exact State.sameButSending_trans (formPauses_same e) (enterHalt_same c _)
  · exact enterHalt_same c e
  · exact State.sameButSending_of_eq e.s.ring e.s.mu _ e.s.feed rfl rfl

theorem hand_same (m : Message) (e : Ev) : e.s.sameButSending (hand m e).s := by
  unfold hand
  split
  · exact State.sameButSending_of_eq _ e.s.mu e.s.rc e.s.feed rfl rfl
  · refine State.sameButSending_trans ?_ (raiseCause_same _ _)
    refine State.sameButSending_trans ?_ (logAlert_same _ _ _ _ _ _)
    split
    · exact State.sameButSending_of_eq _ e.s.mu e.s.rc e.s.feed rfl rfl
    · exact State.sameButSending_refl _

theorem handAll_same (ms : List Message) (e : Ev) : e.s.sameButSending (handAll ms e).s := by
  induction ms generalizing e with
  | nil => exact State.sameButSending_refl _
  | cons m ms ih => exact State.sameButSending_trans (hand_same m e) (ih _)

theorem handFeed_same (f : Feeder × FeedLevel) (e : Ev) : e.s.sameButSending (handFeed f e).s := by
  unfold handFeed
  split
  · exact State.sameButSending_refl _
  · exact hand_same _ _

theorem handFeeds_same (fs : List (Feeder × FeedLevel)) (e : Ev) : e.s.sameButSending (handFeeds fs e).s := by
  induction fs generalizing e with
  | nil => exact State.sameButSending_refl _
  | cons f fs ih => exact State.sameButSending_trans (handFeed_same f e) (ih _)

theorem flushFeeds_same (e : Ev) : e.s.sameButSending (flushFeeds e).s := handFeeds_same e.feeds { e with feeds := [] }

theorem flushAlerts_same (e : Ev) : e.s.sameButSending (flushAlerts e).s :=
  handAll_same _ { e with alertsDue := 0 }

theorem State.sameButSending_choose (s : State) : s.sameButSending { s with ring := s.ring.choose } := by
  refine State.sameButSending_of_eq s.ring.choose s.mu s.rc s.feed ?_ rfl
  unfold RingPort.choose
  split <;> rfl

theorem finish_same (e : Ev) : e.s.sameButSending (finish e) := by
  have h : e.s.sameButSending (flushAlerts (flushFeeds (flushAlerts (flushFeeds (flushFeeds e))))).s :=
    State.sameButSending_trans (flushFeeds_same e) <| State.sameButSending_trans (flushFeeds_same _) <|
      State.sameButSending_trans (flushAlerts_same _) <|
        State.sameButSending_trans (flushFeeds_same _) (flushAlerts_same _)
  unfold finish
  simp only
  split
  · exact State.sameButSending_trans h (State.sameButSending_choose _)
  · exact h

theorem computeLevel_same (f : Feeder) (e : Ev) : e.s.sameButSending (computeLevel f e).s := by
  unfold computeLevel
  split
  · exact State.sameButSending_refl _
  · exact formFeed_same _ _ _

theorem levelIfChanged_same (q : Queues) (f : Feeder) (e : Ev) : e.s.sameButSending (levelIfChanged q f e).s := by
  unfold levelIfChanged
  split
  · exact State.sameButSending_refl _
  · exact computeLevel_same _ _

theorem computeLevels_same (q : Queues) (e : Ev) : e.s.sameButSending (computeLevels q e).s :=
  State.sameButSending_trans (levelIfChanged_same q .block e) <|
    State.sameButSending_trans (levelIfChanged_same q .caseFeeder _) (levelIfChanged_same q .jacket _)

/-! ### With room, messages join in order -/

/-- `e` with messages joined to its outbound queue. -/
def Ev.joined (e : Ev) (ms : List Message) : Ev :=
  { e with s := { e.s with ring := { e.s.ring with outbound := e.s.ring.outbound ++ ms } } }

/-- The FEED messages of the orders an event has formed (R52). -/
def Ev.feedMessages (e : Ev) : List Message := e.feeds.flatMap fun f => e.s.feedOrder f.1 f.2

theorem Ev.joined_nil (e : Ev) : e.joined [] = e := by simp [Ev.joined]

theorem Ev.joined_joined (e : Ev) (ms ns : List Message) : (e.joined ms).joined ns = e.joined (ms ++ ns) := by
  simp [Ev.joined]

theorem hand_room {m : Message} {e : Ev} (h : e.s.ring.outbound.length < 32) : hand m e = e.joined [m] := by
  simp [hand, Config.outboundCapacity, h, Ev.joined]

theorem handAll_room {ms : List Message} {e : Ev} (h : e.s.ring.outbound.length + ms.length ≤ 32) :
    handAll ms e = e.joined ms := by
  induction ms generalizing e with
  | nil => exact (Ev.joined_nil e).symm
  | cons m ms ih =>
    simp only [List.length_cons] at h
    rw [handAll, hand_room (by omega), ih (by simp [Ev.joined]; omega), Ev.joined_joined, List.singleton_append]

theorem handFeeds_room {fs : List (Feeder × FeedLevel)} {e : Ev}
    (h : e.s.ring.outbound.length + (fs.flatMap fun f => e.s.feedOrder f.1 f.2).length ≤ 32) :
    handFeeds fs e = e.joined (fs.flatMap fun f => e.s.feedOrder f.1 f.2) := by
  induction fs generalizing e with
  | nil => exact (Ev.joined_nil e).symm
  | cons f fs ih =>
    rw [List.flatMap_cons, List.length_append] at h
    rw [handFeeds, List.flatMap_cons, ← Ev.joined_joined]
    have hf : handFeed f e = e.joined (e.s.feedOrder f.1 f.2) := by
      unfold handFeed State.feedOrder at *
      split
      · exact (Ev.joined_nil e).symm
      · rename_i hr
        simp only [hr, ↓reduceIte, List.length_cons, List.length_nil] at h
        exact hand_room (by omega)
    rw [hf]
    have hs : (fs.flatMap fun f => (e.joined (e.s.feedOrder f.1 f.2)).s.feedOrder f.1 f.2)
        = fs.flatMap fun f => e.s.feedOrder f.1 f.2 := rfl
    refine ih ?_
    simp only [Ev.joined, List.length_append]
    exact (Nat.add_assoc _ _ _).symm ▸ h

/-- The end of an event with room for its FEED and ALERT messages: they join behind what is waiting (R52, R166), and
an idle transmitter begins a message (R153). -/
theorem finish_room {e : Ev} (hp : e.s.phase = .running)
    (h : e.s.ring.outbound.length + (e.feedMessages.length + e.alertsDue) ≤ 32) :
    finish e = e.s.sending (e.feedMessages ++ List.replicate e.alertsDue (ownMessage e.s .alert 0 0 [1])) := by
  obtain ⟨s, feeds, n⟩ := e
  have h1 : flushFeeds ⟨s, feeds, n⟩ = (Ev.mk s [] n).joined (Ev.feedMessages ⟨s, feeds, n⟩) :=
    handFeeds_room (e := ⟨s, [], n⟩) (by simp only [Ev.feedMessages] at h ⊢; omega)
  have h2 : ∀ t k, flushFeeds ⟨t, [], k⟩ = ⟨t, [], k⟩ := fun _ _ => rfl
  have h3 : ∀ t : State, t.ring.outbound.length + n ≤ 32 →
      flushAlerts ⟨t, [], n⟩ = (Ev.mk t [] 0).joined (List.replicate n (ownMessage t .alert 0 0 [1])) := fun t ht =>
    handAll_room (e := ⟨t, [], 0⟩) (by simpa using ht)
  have h4 : ∀ t : State, flushAlerts ⟨t, [], 0⟩ = ⟨t, [], 0⟩ := fun t => rfl
  simp only [Ev.feedMessages] at h h1 ⊢
  simp only [finish, h1, Ev.joined, h2]
  rw [h3 _ (by simp only [List.length_append]; omega)]
  have hp' : s.phase = .running := hp
  simp only [Ev.joined, h2, h4, State.sending, List.append_assoc, hp', ↓reduceIte]
  rfl

/-- An event that ends by handing over `ms`, its FEED orders and its ALERT messages. -/
theorem finish_handsOver {e : Ev} {ms : List Message} (hp : e.s.phase = .running) :
    e.s.handsOver (ms ++ e.feedMessages ++ List.replicate e.alertsDue (ownMessage e.s .alert 0 0 [1]))
      (finish (handAll ms e)) := by
  refine ⟨State.sameButSending_trans (handAll_same ms e) (finish_same _), fun h => ?_⟩
  simp only [List.length_append, List.length_replicate] at h
  rw [handAll_room (by omega), finish_room (e := e.joined ms) hp]
  · simp only [State.sending, Ev.joined, Ev.feedMessages, List.append_assoc]
    rfl
  · simp only [Ev.joined, List.length_append]
    have : (Ev.feedMessages (e.joined ms)).length = e.feedMessages.length := rfl
    simp only [Ev.joined] at this
    omega

end Sys2Proof.Machine
end

