-- ==== Sys2Proof/Laws/Ring.lean ====
section
/-! SUPPORT. What the arrival of a good message comes to: the state the message finds, and the event its kind hands it
to. -/

namespace Sys2Proof.Machine

/-! ### Alerts of an event -/

/-- The ALERT messages an event owes are those of a log found as `before` (R166). -/
def Ev.owes (before : List Alert) (e : Ev) : Prop :=
  e.alertsDue = (if before = [] ∧ e.s.mu.log ≠ [] then 1 else 0) ∧ (before ≠ [] → e.s.mu.log ≠ [])

theorem Management.logged_log_ne_nil (mu : Management) (a : Alert) : (mu.logged a).log ≠ [] := by
  unfold Management.logged
  split
  · simp
  · rename_i h
    intro h'
    simp only at h'
    simp [h', Config.logCapacity] at h

theorem Ev.owes_start (s : State) : (Ev.start s).owes s.mu.log := by
  refine ⟨?_, id⟩
  simp [Ev.start]

theorem Ev.owes_logAlert {before : List Alert} {e : Ev} (h : e.owes before) (code : AlertCode) (stage : Byte)
    (serial : Serial) (key : TitleKey) (detail : Word) :
    (logAlert code stage serial key detail e).owes before := by
  have hl := Management.logged_log_ne_nil e.s.mu ⟨code, stage, serial, key, e.s.cycles.stamp, detail⟩
  refine ⟨?_, fun _ => hl⟩
  obtain ⟨h1, h2⟩ := h
  simp only [logAlert_alertsDue, logAlert_mu, h1]
  by_cases hb : before = []
  · by_cases he : e.s.mu.log = [] <;> simp [hb, he, hl]
  · simp [hb, h2 hb]

theorem Ev.owes_of_eq {before : List Alert} {e e' : Ev} (h : e.owes before) (hm : e'.s.mu = e.s.mu)
    (ha : e'.alertsDue = e.alertsDue) : e'.owes before := by
  unfold Ev.owes
  rw [hm, ha]
  exact h

/-- What is owed at the end of an event is its ALERT message, if any. -/
theorem Ev.owes_alertFor {s : State} {e : Ev} (h : e.owes s.mu.log) :
    List.replicate e.alertsDue (ownMessage e.s .alert 0 0 [1]) = s.alertFor e.s := by
  rw [h.1]
  unfold State.alertFor
  split <;> rfl

/-! ### Causes -/

/-- The FEED orders that raising a cause forms (R51, R132). -/
def State.causeFeeds (s : State) : List (Feeder × FeedLevel) :=
  if s.rc.state = .run then [(.block, .pause), (.caseFeeder, .pause), (.jacket, .pause)] else []

theorem Cause.weight_eq (c : Cause) : BitVec.ofNat 16 (CauseSet.empty.add c).weight = c.weight := by
  cases c <;> decide

@[simp] theorem raiseCause_s (c : Cause) (e : Ev) : (raiseCause c e).s = e.s.caused c := by
  unfold raiseCause State.caused
  cases h : e.s.rc.state
  · rfl
  · simp only [enterHalt, Cause.weight_eq]
    rfl
  · rfl
  · simp only [enterHalt, Cause.weight_eq]
    rfl

@[simp] theorem raiseCause_feeds (c : Cause) (e : Ev) : (raiseCause c e).feeds = e.feeds ++ e.s.causeFeeds := by
  unfold raiseCause State.causeFeeds
  cases h : e.s.rc.state
  · simp
  · simp [enterHalt, formPauses]
  · simp
  · simp [enterHalt]

theorem Ev.owes_raiseCause {before : List Alert} {e : Ev} (h : e.owes before) (c : Cause) :
    (raiseCause c e).owes before := by
  unfold raiseCause
  split
  · exact h
  · exact Ev.owes_logAlert (e := { formPauses e with s := { (formPauses e).s with rc := _ } }) h _ _ _ _ _
  · exact Ev.owes_logAlert (e := { e with s := { e.s with rc := _ } }) h _ _ _ _ _
  · exact h

theorem State.causeFeeds_messages (s : State) :
    (s.causeFeeds.flatMap fun f => s.feedOrder f.1 f.2) = s.causeOrders := by
  unfold State.causeFeeds State.causeOrders State.pauseOrders
  split <;> simp

theorem State.caused_same (c : Cause) (s : State) : s.sameButSending (s.caused c) := by
  have h := raiseCause_same c (Ev.start s)
  rw [raiseCause_s] at h
  exact h

theorem State.caused_phase (c : Cause) (s : State) : (s.caused c).phase = s.phase := by
  unfold State.caused; split <;> rfl

theorem State.caused_feedOrder (c : Cause) (s : State) (f : Feeder) (v : FeedLevel) :
    (s.caused c).feedOrder f v = s.feedOrder f v := by
  unfold State.caused; split <;> rfl

/-! ### Arrival -/

/-- The event of a good message as its disposal finds it. -/
def State.arrival (s : State) : Ev :=
  ⟨s.arrived, [], if s.ring.link = .acquiring ∧ s.mu.log = [] then 1 else 0⟩

theorem State.arrival_eq (s : State) :
    comeUp (setRing { s.ring with consecBad := 0 } (Ev.start s)) = s.arrival := by
  unfold comeUp State.arrival State.arrived
  by_cases h : s.ring.link = .acquiring
  · simp [h, setRing, Ev.start, logAlert, State.logging]
  · simp [h, setRing, Ev.start]

theorem State.arrival_owes (s : State) : s.arrival.owes s.mu.log := by
  rw [← State.arrival_eq]
  unfold comeUp
  split
  · exact Ev.owes_logAlert (e := setRing _ (setRing _ (Ev.start s))) (Ev.owes_start s) _ _ _ _ _
  · exact Ev.owes_start s

theorem State.arrived_phase (s : State) : s.arrived.phase = s.phase := by
  unfold State.arrived; split <;> rfl

theorem State.arrived_ownNode (s : State) : s.arrived.ring.ownNode = s.ring.ownNode := by
  unfold State.arrived; split <;> rfl

theorem State.arrived_formerNode (s : State) : s.arrived.ring.formerNode = s.ring.formerNode := by
  unfold State.arrived; split <;> rfl

/-- `s.arrived` is `s` but for the Ring Port's link and consecutive-bad count and the alert log. -/
theorem State.arrived_eq (s : State) :
    s.arrived = { s with
      ring := { s.ring with link := s.arrived.ring.link, consecBad := 0 }
      mu := s.arrived.mu } := by
  unfold State.arrived; split <;> rfl

@[simp] theorem State.arrived_rc (s : State) : s.arrived.rc = s.rc := by unfold State.arrived; split <;> rfl
@[simp] theorem State.arrived_lineMap (s : State) : s.arrived.lineMap = s.lineMap := by
  unfold State.arrived; split <;> rfl
@[simp] theorem State.arrived_titles (s : State) : s.arrived.titles = s.titles := by
  unfold State.arrived; split <;> rfl
@[simp] theorem State.arrived_queues (s : State) : s.arrived.queues = s.queues := by
  unfold State.arrived; split <;> rfl
@[simp] theorem State.arrived_cycles (s : State) : s.arrived.cycles = s.cycles := by
  unfold State.arrived; split <;> rfl
@[simp] theorem State.arrived_limits (s : State) : s.arrived.limits = s.limits := by
  unfold State.arrived; split <;> rfl
@[simp] theorem State.arrived_feed (s : State) : s.arrived.feed = s.feed := by unfold State.arrived; split <;> rfl
@[simp] theorem State.arrived_totals (s : State) : s.arrived.totals = s.totals := by
  unfold State.arrived; split <;> rfl
@[simp] theorem State.arrived_iron (s : State) : s.arrived.iron = s.iron := by unfold State.arrived; split <;> rfl
@[simp] theorem State.arrived_dose (s : State) : s.arrived.dose = s.dose := by unfold State.arrived; split <;> rfl
@[simp] theorem State.arrived_ccu (s : State) : s.arrived.ccu = s.ccu := by unfold State.arrived; split <;> rfl
@[simp] theorem State.arrived_profiles (s : State) : s.arrived.profiles = s.profiles := by
  unfold State.arrived; split <;> rfl
@[simp] theorem State.arrived_store (s : State) : s.arrived.store = s.store := by unfold State.arrived; split <;> rfl
@[simp] theorem State.arrived_pins (s : State) : s.arrived.pins = s.pins := by unfold State.arrived; split <;> rfl
@[simp] theorem State.arrived_pending (s : State) : s.arrived.pending = s.pending := by
  unfold State.arrived; split <;> rfl
@[simp] theorem State.arrived_outbound (s : State) : s.arrived.ring.outbound = s.ring.outbound := by
  unfold State.arrived; split <;> rfl

/-! ### Disposal -/

/-- A good message that is not the part's own is disposed of by its destination (R149). -/
theorem receive_hears {s : State} {m : Message} (h : s.hears m) :
    receive m s = finish
      (if m.dst = s.ring.ownNode then take m s.arrival
       else if m.dst = Config.broadcast ∧ takenWhenBroadcast m then take m (forward m s.arrival)
       else forward m s.arrival) := by
  obtain ⟨hp, hd, hs, hl, ho, hf⟩ := h
  have hg : goodHeader m = true := by simp [goodHeader, hd, hs, hl]
  have hn : ¬ (m.src = s.arrival.s.ring.ownNode ∨ some m.src = s.arrival.s.ring.formerNode) := by
    simp only [State.arrival, State.arrived_ownNode, State.arrived_formerNode]
    tauto
  simp only [receive, event, hp, ↓reduceIte, hg, goodReceived]
  rw [show (Ev.start s).s.ring = s.ring from rfl, State.arrival_eq, dispose, if_neg hn]
  simp only [State.arrival, State.arrived_ownNode]

/-- The event of a taken message as its block finds it. -/
def State.hearing (s : State) (m : Message) : Ev := { s.arrival with s := s.heard m }

theorem forward_arrival (s : State) (m : Message) (h : m.dst ≠ s.ring.ownNode) :
    forward m s.arrival = s.hearing m := by
  unfold forward State.hearing State.heard RingPort.passingOn State.arrival
  by_cases hf : s.arrived.ring.forward.length < 2
  · simp [h, hf, Config.forwardCapacity, setRing]
  · simp [h, hf, Config.forwardCapacity, setRing, RingPort.countError, satAdd, Config.linkErrorTop]

theorem State.hearing_own (s : State) (m : Message) (h : m.dst = s.ring.ownNode) : s.hearing m = s.arrival := by
  simp [State.hearing, State.heard, h, State.arrival]

theorem State.hearing_owes (s : State) (m : Message) : (s.hearing m).owes s.mu.log := by
  refine Ev.owes_of_eq s.arrival_owes ?_ rfl
  unfold State.hearing State.heard
  dsimp only
  split <;> rfl

/-- A SIGHT, CYCLE, SENSE or MARK addressed to the part or broadcast is taken (R149). -/
theorem receive_takes {s : State} {m : Message} (h : s.takes m) (hk : takenWhenBroadcast m = true) :
    receive m s = finish (take m (s.hearing m)) := by
  obtain ⟨h, hd⟩ := h
  rw [receive_hears h]
  by_cases ho : m.dst = s.ring.ownNode
  · rw [if_pos ho, State.hearing_own s m ho]
  · have hb : m.dst = Config.broadcast := by simpa [ho, Config.broadcast] using hd
    rw [if_neg ho, if_pos ⟨hb, hk⟩, forward_arrival s m ho]

/-- A request of node 0 addressed to the part goes to the block of its kind (R150). -/
theorem receive_obeys {s : State} {h : Envelope} (ho : s.obeys h) (k : Kind) {p : List Byte} (hp : p.length ≤ 56) :
    receive (h.message k.code p) s = finish (take (h.message k.code p) s.arrival) := by
  obtain ⟨h1, h2, h3, h4, h5, h6⟩ := ho
  have hh : s.hears (h.message k.code p) := by
    refine ⟨h1, h3, ?_, hp, ?_, ?_⟩
    · simp [Envelope.message, h4]
    · simpa [Envelope.message, h4] using fun x => h5 x.symm
    · simpa [Envelope.message, h4] using fun x => h6 x.symm
  rw [receive_hears hh]
  simp [Envelope.message, h2]

theorem take_ctrl {s : State} {h : Envelope} (ho : s.obeys h) (p : List Byte) :
    take (h.message Kind.ctrl.code p) s.arrival = ctrl h.tag p s.arrival := by
  simp [take, Envelope.message, fromMaster, ho.2.2.2.1, show Kind.ofCode Kind.ctrl.code = some .ctrl from by decide]

theorem take_write {s : State} {h : Envelope} (ho : s.obeys h) (p : List Byte) :
    take (h.message Kind.write.code p) s.arrival = write h.tag p s.arrival := by
  simp [take, Envelope.message, fromMaster, ho.2.2.2.1, show Kind.ofCode Kind.write.code = some .write from by decide]

theorem take_read {s : State} {h : Envelope} (ho : s.obeys h) (p : List Byte) :
    take (h.message Kind.read.code p) s.arrival = read h.tag p s.arrival := by
  simp [take, Envelope.message, fromMaster, ho.2.2.2.1, show Kind.ofCode Kind.read.code = some .read from by decide]

theorem exec_ctrl {s : State} {h : Envelope} (ho : s.obeys h) {p : List Byte} (hp : p.length ≤ 56) :
    receive (h.message Kind.ctrl.code p) s = finish (ctrl h.tag p s.arrival) := by
  rw [receive_obeys ho _ hp, take_ctrl ho]

theorem exec_write {s : State} {h : Envelope} (ho : s.obeys h) {p : List Byte} (hp : p.length ≤ 56) :
    receive (h.message Kind.write.code p) s = finish (write h.tag p s.arrival) := by
  rw [receive_obeys ho _ hp, take_write ho]

theorem exec_read {s : State} {h : Envelope} (ho : s.obeys h) {p : List Byte} (hp : p.length ≤ 56) :
    receive (h.message Kind.read.code p) s = finish (read h.tag p s.arrival) := by
  rw [receive_obeys ho _ hp, take_read ho]

/-! ### The end of an event -/

/-- An event that began with the log of `s` and ends by handing `ms` over: they join, then its FEED orders, then the
ALERT it owes (R52, R166). -/
theorem finish_delivers {s : State} {e : Ev} {ms : List Message} (hp : e.s.phase = .running) (ho : e.owes s.mu.log) :
    e.s.handsOver (ms ++ e.feedMessages ++ s.alertFor e.s) (finish (handAll ms e)) := by
  rw [← Ev.owes_alertFor ho]
  exact finish_handsOver hp

/-- An event that has formed no message only lets an idle transmitter begin one (R153). -/
theorem finish_silent {u : State} (hp : u.phase = .running) : finish ⟨u, [], 0⟩ = u.sending [] := by
  have h : finish ⟨u, [], 0⟩ = if u.phase = .running then { u with ring := u.ring.choose } else u := rfl
  simp [h, hp, State.sending]

end Sys2Proof.Machine
end

