-- ==== Sys2Proof/Laws/Tables.lean ====
section
/-! SUPPORT. Reading a table after it was made or written: an entry written reads as written, every other as before. -/

namespace Sys2Proof.Machine

theorem Table.ext {α : Type} {n : Nat} {t u : Table α n} (h : t.list = u.list) : t = u := by
  cases t; cases u; cases h; rfl

theorem Table.get_eq {α : Type} {n : Nat} (t : Table α n) (i : Fin n) :
    t.get i = t.list[i.val]'(by rw [t.len]; exact i.isLt) := rfl

theorem Table.ext_get {α : Type} {n : Nat} {t u : Table α n} (h : ∀ i, t.get i = u.get i) : t = u := by
  refine Table.ext (List.ext_getElem (by rw [t.len, u.len]) fun k hk _ => ?_)
  exact h ⟨k, by rw [← t.len]; exact hk⟩

@[simp] theorem Table.get_set_same {α : Type} {n : Nat} (t : Table α n) (i : Fin n) (x : α) :
    (t.set i x).get i = x := by
  simp [Table.get_eq, Table.set]

theorem Table.get_set_other {α : Type} {n : Nat} (t : Table α n) {i j : Fin n} (x : α) (h : i ≠ j) :
    (t.set i x).get j = t.get j := by
  have : i.val ≠ j.val := fun hij => h (Fin.ext hij)
  simp [Table.get_eq, Table.set, this]

theorem Table.get_set {α : Type} {n : Nat} (t : Table α n) (i j : Fin n) (x : α) :
    (t.set i x).get j = if i = j then x else t.get j := by
  split
  · subst_vars; exact Table.get_set_same t _ x
  · exact Table.get_set_other t x ‹_›

@[simp] theorem Table.get_fill {α : Type} (n : Nat) (x : α) (i : Fin n) : (Table.fill n x).get i = x := by
  simp only [Table.get_eq, Table.fill]
  exact List.getElem_replicate _

@[simp] theorem Table.get_map {α β : Type} {n : Nat} (f : α → β) (t : Table α n) (i : Fin n) :
    (t.map f).get i = f (t.get i) := by
  simp [Table.get_eq, Table.map]

/-- The numbers that a write of `k` records from `i` on does not reach read as before. -/
theorem Table.get_setFrom_other {α : Type} {n : Nat} [NeZero n] (xs : List α) (t : Table α n) (i : Nat) (j : Fin n)
    (h : ∀ k < xs.length, Fin.ofNat n (i + k) ≠ j) : (t.setFrom i xs).get j = t.get j := by
  induction xs generalizing t i with
  | nil => rfl
  | cons x xs ih =>
    rw [Table.setFrom, ih, Table.get_set_other]
    · simpa using h 0 (by simp)
    · intro k hk
      have := h (k + 1) (by simpa using hk)
      rwa [show i + 1 + k = i + (k + 1) by omega]

/-- A record written at distance `k` from the first reads as written, when the write does not wrap onto itself. -/
theorem Table.get_setFrom_at {α : Type} {n : Nat} [NeZero n] (xs : List α) (t : Table α n) (i k : Nat)
    (hk : k < xs.length) (hn : xs.length ≤ n) : (t.setFrom i xs).get (Fin.ofNat n (i + k)) = xs[k] := by
  induction xs generalizing t i k with
  | nil => simp at hk
  | cons x xs ih =>
    rw [Table.setFrom]
    cases k with
    | zero =>
      rw [Table.get_setFrom_other]
      · simp
      · intro k hk' heq
        have hne : (i + 1 + k) % n = i % n := by simpa [Fin.ofNat] using congrArg Fin.val heq
        have hlen : k + 1 < n := by simp at hn; omega
        have hmod : (k + 1) % n = 0 := by
          have : (i + (k + 1)) % n = (i + 0) % n := by simpa [show i + 1 + k = i + (k + 1) by omega] using hne
          have h0 : (k + 1) % n = 0 % n := Nat.ModEq.add_left_cancel' i this
          rwa [Nat.zero_mod] at h0
        rw [Nat.mod_eq_of_lt hlen] at hmod
        omega
    | succ k =>
      have := ih (t.set (Fin.ofNat n i) x) (i + 1) k (by simpa using hk) (by simp at hn; omega)
      rw [show i + (k + 1) = i + 1 + k by omega, this]
      simp

end Sys2Proof.Machine
end

