-- ==== Sys2Proof/Laws/Commands.lean ====
section
/-! SUPPORT. From a command to its completion: what a command that carries a message runs, how an event that hands over
messages completes, and what feed levels, continuity, reconciliation and halt causes make of an event in the terms of
Safety. -/

namespace Sys2Proof.Machine

/-! ### Commands and messages -/

theorem decode_good {bs : List Byte} {m : Message} (h : decode bs = some m) : goodHeader m = true := by
  unfold decode at h
  split at h
  · split at h
    · simp only [Option.ite_none_right_eq_some, Option.some.injEq] at h
      obtain ⟨⟨h1, h2⟩, rfl⟩ := h
      exact h1
    · exact absurd h (by simp)
  · exact absurd h (by simp)

/-- A command that carries a good message is the reception of that message. -/
theorem exec_carried {c : Instr} {m : Message} (h : carried c = some m) (s : State) :
    exec c s = .next (receive m (s.withPinsOf c)) := by
  cases c <;> simp only [carried, Option.some.injEq, reduceCtorEq] at h <;> first
    | (subst h; rfl)
    | (simp only [exec, execBadMessage, execConsecutiveBadLimit, receiveBytes, receive, h, decode_good h, State.withPinsOf]
       rfl)

theorem event_running {f : Ev → Ev} {s : State} (h : s.phase = .running) : event f s = finish (f (Ev.start s)) := by
  simp [event, h]

theorem event_waiting {f : Ev → Ev} {s : State} (h : s.phase ≠ .running) : event f s = s := by
  simp [event, h]

@[simp] theorem State.arrival_s (s : State) : s.arrival.s = s.arrived := rfl

@[simp] theorem State.arrival_feeds (s : State) : s.arrival.feeds = [] := rfl

@[simp] theorem State.hearing_s (s : State) (m : Message) : (s.hearing m).s = s.heard m := rfl

@[simp] theorem State.hearing_feeds (s : State) (m : Message) : (s.hearing m).feeds = [] := rfl

theorem State.heard_phase (s : State) (m : Message) : (s.heard m).phase = s.phase := by
  unfold State.heard
  split <;> exact State.arrived_phase s

/-- 256 times the kind code plus the destination, as a number (R151, R154). -/
theorem kindDst_eq (m : Message) : kindDst m = BitVec.ofNat 16 (256 * m.kind.toNat + m.dst.toNat) := by
  unfold kindDst
  apply BitVec.eq_of_toNat_eq
  rw [BitVec.toNat_append, ← Nat.shiftLeft_add_eq_or_of_lt m.dst.isLt]
  simp [Nat.shiftLeft_eq]
  omega

/-! ### Completions -/

/-- A command whose event ends by handing over `ms` completes with the state the event has made. -/
theorem completes_of {s u : State} {c : Instr} {ms : List Message} {e : Ev}
    (hx : exec c s = .next (finish (handAll ms e))) (hu : e.s = u) (hp : u.phase = .running) (ho : e.owes s.mu.log) :
    s.completes c u (ms ++ e.feedMessages) := by
  subst hu
  exact ⟨_, hx, finish_delivers hp ho⟩

/-- A request that is answered at once has no other effect. -/
theorem answers_of {s : State} {c : Instr} {h : Envelope} {st : Status} {r : Reason} (ho : s.obeys h)
    (hx : exec c s = .next (finish (answer h.tag st r s.arrival))) : s.onlyAnswers c h.tag st r :=
  completes_of (e := s.arrival) (ms := [ctrlReply s.arrived h.tag st r]) hx rfl
    ((State.arrived_phase s).trans ho.1) s.arrival_owes

/-- A CTRL of two bytes with a code of the table reaches its request (R129). -/
theorem receive_request {s : State} {h : Envelope} (ho : s.obeys h) (r : Request) (arg : Byte) :
    receive (h.message Kind.ctrl.code [r.code, arg]) s = finish (ctrlRequest r h.tag arg s.arrival) := by
  rw [exec_ctrl ho (by simp)]
  congr 1
  unfold ctrl
  rw [if_neg (by simp)]
  cases r <;> rfl

/-- A message taken without effect leaves what it found. -/
theorem receive_silent {s : State} {m : Message} (h : s.hears m) (hd : m.dst = s.ring.ownNode)
    (ht : take m s.arrival = s.arrival) : s.arrived.handsOver (s.alertFor s.arrived) (receive m s) := by
  rw [receive_hears h, if_pos hd, ht]
  exact finish_delivers (s := s) (e := s.arrival) (ms := []) (by simp [State.arrived_phase, h.1]) s.arrival_owes

/-- An event that raises a cause at its end hands over the FEED orders of the halt and its ALERT (R132, R133). -/
theorem finish_raiseCause {s v : State} {c : Cause} {e : Ev} (hv : e.s = v) (hf : e.feeds = []) (hp : v.phase = .running)
    (ho : e.owes s.mu.log) :
    (v.caused c).handsOver (v.causeOrders ++ s.alertFor (v.caused c)) (finish (raiseCause c e)) := by
  have h := finish_delivers (s := s) (e := raiseCause c e) (ms := [])
    (by rw [raiseCause_s, State.caused_phase, hv]; exact hp) (Ev.owes_raiseCause ho c)
  have hfm : (raiseCause c e).feedMessages = v.causeOrders := by
    simp only [Ev.feedMessages, raiseCause_s, raiseCause_feeds, hf, List.nil_append, hv, State.caused_feedOrder]
    exact State.causeFeeds_messages v
  rw [hfm, raiseCause_s, hv] at h
  exact h

/-! ### What raising a cause leaves alone -/

@[simp] theorem State.caused_ring (c : Cause) (s : State) : (s.caused c).ring = s.ring := by
  unfold State.caused; split <;> rfl

@[simp] theorem State.caused_queues (c : Cause) (s : State) : (s.caused c).queues = s.queues := by
  unfold State.caused; split <;> rfl

@[simp] theorem State.caused_totals (c : Cause) (s : State) : (s.caused c).totals = s.totals := by
  unfold State.caused; split <;> rfl

@[simp] theorem State.caused_titles (c : Cause) (s : State) : (s.caused c).titles = s.titles := by
  unfold State.caused; split <;> rfl

@[simp] theorem State.caused_dose (c : Cause) (s : State) : (s.caused c).dose = s.dose := by
  unfold State.caused; split <;> rfl

@[simp] theorem State.caused_limits (c : Cause) (s : State) : (s.caused c).limits = s.limits := by
  unfold State.caused; split <;> rfl

@[simp] theorem State.caused_lineMap (c : Cause) (s : State) : (s.caused c).lineMap = s.lineMap := by
  unfold State.caused; split <;> rfl

@[simp] theorem State.caused_cycles (c : Cause) (s : State) : (s.caused c).cycles = s.cycles := by
  unfold State.caused; split <;> rfl

@[simp] theorem State.caused_iron (c : Cause) (s : State) : (s.caused c).iron = s.iron := by
  unfold State.caused; split <;> rfl

@[simp] theorem State.caused_profiles (c : Cause) (s : State) : (s.caused c).profiles = s.profiles := by
  unfold State.caused; split <;> rfl

/-! ### Feed levels -/

theorem State.feedOrder_feed (s : State) (l : FeedLevels) (f : Feeder) (v : FeedLevel) :
    ({ s with feed := l }).feedOrder f v = s.feedOrder f v := rfl

/-- Forming a FEED order adds its message behind those formed (R52). -/
theorem formFeed_feedMessages (f : Feeder) (v : FeedLevel) (e : Ev) :
    (formFeed f v e).feedMessages = e.feedMessages ++ e.s.feedOrder f v := by
  simp only [Ev.feedMessages, formFeed, List.flatMap_append, List.flatMap_cons, List.flatMap_nil, List.append_nil]
  rfl

theorem FeedLevels.set_of (l : FeedLevels) (f : Feeder) : l.set (l.of f) f = l := by cases f <;> rfl

theorem levelIfChanged_s (before : Queues) (f : Feeder) (e : Ev) :
    (levelIfChanged before f e).s = e.s.levelledFrom before f := by
  unfold levelIfChanged State.levelledFrom computeLevel State.levelled
  by_cases h : e.s.queues.fedBy f = before.fedBy f
  · rw [if_pos h, if_pos h]
  · rw [if_neg h, if_neg h]
    by_cases k : computedLevel e.s f = e.s.feed.of f
    · rw [if_pos k, k, FeedLevels.set_of]
    · rw [if_neg k]; rfl

theorem levelIfChanged_feedMessages (before : Queues) (f : Feeder) (e : Ev) :
    (levelIfChanged before f e).feedMessages = e.feedMessages ++ e.s.orderFrom before f := by
  unfold levelIfChanged State.orderFrom computeLevel State.levelOrder
  by_cases h : e.s.queues.fedBy f = before.fedBy f
  · rw [if_pos h, if_pos h, List.append_nil]
  · rw [if_neg h, if_neg h]
    by_cases k : computedLevel e.s f = e.s.feed.of f
    · rw [if_pos k, if_pos k, List.append_nil]
    · rw [if_neg k, if_neg k, formFeed_feedMessages]

theorem levelIfChanged_alertsDue (before : Queues) (f : Feeder) (e : Ev) :
    (levelIfChanged before f e).alertsDue = e.alertsDue := by
  unfold levelIfChanged computeLevel formFeed
  split
  · rfl
  · split <;> rfl

theorem State.levelledFrom_mu (before : Queues) (f : Feeder) (s : State) : (s.levelledFrom before f).mu = s.mu := by
  unfold State.levelledFrom State.levelled; split <;> rfl

theorem State.levelledFrom_fields (before : Queues) (f : Feeder) (s : State) :
    (s.levelledFrom before f).rc = s.rc ∧ (s.levelledFrom before f).queues = s.queues
      ∧ (s.levelledFrom before f).limits = s.limits ∧ (s.levelledFrom before f).lineMap = s.lineMap
      ∧ (s.levelledFrom before f).ring = s.ring := by
  unfold State.levelledFrom State.levelled; split <;> exact ⟨rfl, rfl, rfl, rfl, rfl⟩

/-- A computation for one feeder does not touch what the others are computed from (R50). -/
theorem State.orderFrom_levelledFrom {f g : Feeder} (h : f ≠ g) (before : Queues) (s : State) :
    (s.levelledFrom before f).orderFrom before g = s.orderFrom before g := by
  unfold State.levelledFrom
  split
  · rfl
  · cases f <;> cases g <;> first | exact absurd rfl h | rfl

/-- The feed level computations at the end of an event: the state, the orders, and nothing else (R50, R51, R52). -/
theorem computeLevels_spec (before : Queues) (e : Ev) :
    (computeLevels before e).s = e.s.relevelled before
      ∧ (computeLevels before e).feedMessages = e.feedMessages ++ e.s.relevelOrders before
      ∧ (computeLevels before e).alertsDue = e.alertsDue := by
  refine ⟨?_, ?_, ?_⟩
  · simp only [computeLevels, levelIfChanged_s, State.relevelled]
  · simp only [computeLevels, levelIfChanged_s, levelIfChanged_feedMessages, State.relevelOrders, List.append_assoc]
    rw [State.orderFrom_levelledFrom (by decide), State.orderFrom_levelledFrom (by decide),
      State.orderFrom_levelledFrom (by decide)]
  · simp only [computeLevels, levelIfChanged_alertsDue]

theorem Ev.owes_computeLevels {before : List Alert} {e : Ev} (h : e.owes before) (q : Queues) :
    (computeLevels q e).owes before := by
  obtain ⟨h1, -, h3⟩ := computeLevels_spec q e
  refine Ev.owes_of_eq h ?_ h3
  rw [h1, State.relevelled, State.levelledFrom_mu, State.levelledFrom_mu, State.levelledFrom_mu]

/-! ### Continuity and reconciliation -/

/-- A cycle number passes exactly when it follows the last (R58). -/
theorem inSequence_eq (last : Option Word) (n : Word) : inSequence last n = follows last n := by
  cases last with
  | none => simp [inSequence, follows]
  | some l =>
    simp only [inSequence, follows, reduceCtorEq, Option.some.injEq, false_or, beq_eq_decide]
    refine decide_eq_decide.2 ⟨fun h => ?_, fun h => ?_⟩ <;> bv_omega

/-- The continuity check of a cycle: the number recorded, and a gap logged and raised (R57, R58). -/
theorem continuity_s (m : Merge) (n : Word) (e : Ev) :
    (continuity m n e).s = ({ e.s with cycles := e.s.cycles.setLast n m }).gapChecked (follows (e.s.cycles.last m) n)
      m.stage.code n := by
  unfold continuity State.gapChecked
  simp only [inSequence_eq]
  split
  · rfl
  · rw [raiseCause_s]; rfl

/-- The alert of a reconciliation (R63, R64). -/
theorem presenceAlert_s {α : Type} (m : Merge) (c : Collection) (serial : α → Serial) (key : α → TitleKey)
    (p : Presence α) (e : Ev) :
    (presenceAlert m c serial key p e).s
      = e.s.reconciled p m.stage.code (BitVec.ofNat 16 m.role) (BitVec.ofNat 16 c.code) serial key := by
  cases p <;> rfl

theorem presenceAlert_feeds {α : Type} (m : Merge) (c : Collection) (serial : α → Serial) (key : α → TitleKey)
    (p : Presence α) (e : Ev) : (presenceAlert m c serial key p e).feeds = e.feeds := by cases p <;> rfl

theorem lostTally_eq {α : Type} (tally : α → Tally) (p : Presence α) : lostTally tally p = lostTallies tally p := by
  cases p <;> rfl

theorem phantomTallies_eq {α : Type} (item : ItemType) (stage : Stage) (p : Presence α) :
    phantomTallies item stage p = phantomAccount item stage p := rfl

theorem starve_eq (w : Waiting) (limit : Nat) : w.starve limit = starvedCounts w limit := rfl

theorem starveAlerts_eq (w : Waiting) (limit : Nat) : w.starveAlerts limit = starvedNow w limit := by
  unfold Waiting.starveAlerts starvedNow Waiting.starve satAdd Config.starvedTop
  cases w.mark <;> simp

theorem blockTally_eq (b : BlockEntry) (route : Route) (stage : Stage) (rs : List TallyReason) :
    b.tally route stage rs = blockTally b route stage rs := by
  cases h : b.title <;> simp [BlockEntry.tally, blockTally, BlockEntry.tallyKey, h]

theorem blockReasons_eq (b : BlockEntry) : b.reasons = blockReasons b := by
  cases h : b.title <;> simp [BlockEntry.reasons, blockReasons, reasonIf, h]

theorem bookTally_eq (r : BookRecord) (route : Route) (stage : Stage) (more : List TallyReason) :
    r.tally route stage more = bookTally r route stage more := rfl

/-! ### Tables -/

/-- Every entry of a table meets a test exactly when every index does. -/
theorem Table.all_iff {α : Type} {n : Nat} (t : Table α n) (p : α → Bool) :
    t.list.all p = true ↔ ∀ i, p (t.get i) = true := by
  simp only [List.all_eq_true, Table.get]
  refine ⟨fun h i => h _ (List.get_mem ..), fun h x hx => ?_⟩
  obtain ⟨i, rfl⟩ := List.get_of_mem hx
  exact h (i.cast t.len)

/-- Some entry of a table meets a test exactly when some index does. -/
theorem Table.any_iff {α : Type} {n : Nat} (t : Table α n) (p : α → Bool) :
    t.list.any p = true ↔ ∃ i, p (t.get i) = true := by
  simp only [List.any_eq_true, Table.get]
  refine ⟨fun ⟨x, hx, h⟩ => ?_, fun ⟨i, h⟩ => ⟨_, List.get_mem .., h⟩⟩
  obtain ⟨i, rfl⟩ := List.get_of_mem hx
  exact ⟨i.cast t.len, h⟩

theorem LineMap.complete_iff (m : LineMap) : m.complete = true ↔ ∀ r, m.get r ≠ 0 := by
  rw [LineMap.complete, Table.all_iff]
  simp

theorem Bank.hasTitle_iff (b : Bank) : b.hasTitle = true ↔ ∃ i, (b.get i).key ≠ 0 := by
  rw [Bank.hasTitle, Table.any_iff]
  simp [TitleRecord.occupied]

theorem Bank.keysUnique_iff (b : Bank) : Bank.keysUnique b = true ↔ Bank.unique b := by
  rw [Bank.keysUnique, decide_eq_true_iff, Bank.keys, List.Nodup, List.pairwise_filter, List.pairwise_map,
    List.pairwise_iff_getElem]
  have key : ∀ (k : Nat) (hk : k < b.list.length), b.list[k] = b.get ⟨k, by rwa [b.len] at hk⟩ := fun _ _ => rfl
  refine ⟨fun h i j hi hij => ?_, fun h i j hi hj hlt => ?_⟩
  · by_contra hne
    rcases Nat.lt_or_gt_of_ne (fun e => hne (Fin.ext e)) with hlt | hlt
    · have := h i.val j.val (by rw [b.len]; exact i.2) (by rw [b.len]; exact j.2) hlt
      rw [key, key] at this
      exact this (by simpa using hi) (by simpa [← hij] using hi) hij
    · have := h j.val i.val (by rw [b.len]; exact j.2) (by rw [b.len]; exact i.2) hlt
      rw [key, key] at this
      exact this (by simpa [← hij] using hi) (by simpa using hi) hij.symm
  · rw [key, key]
    intro ha _ hab
    have := h _ _ (by simpa using ha) hab
    exact absurd (congrArg Fin.val this) (Nat.ne_of_lt hlt)

/-! ### The power-on load -/

theorem StoreGroup.load_usable {α : Type} {g : StoreGroup α} {f : α → Bool} (d : α) (h : g.usable f) :
    g.load f d = g.content := by
  obtain ⟨h1, h2, h3⟩ := h
  unfold StoreGroup.load StoreGroup.judge
  cases hh : g.health <;> simp_all

theorem StoreGroup.load_bad {α : Type} {g : StoreGroup α} {f : α → Bool} (d : α) (h : ¬ g.usable f) : g.load f d = d := by
  unfold StoreGroup.usable at h
  unfold StoreGroup.load StoreGroup.judge
  cases hh : g.health <;> cases hm : g.marker <;> cases hf : f g.content <;> simp_all

/-- The record a judged group joins to a log with room (R170). -/
theorem judgedAlert_log {α : Type} (g : StoreGroup α) (f : α → Bool) (n : Nat) {e : Ev} (hn : e.s.mu.log.length < 32) :
    (judgedAlert n (g.judge f) e).s.mu.log
      = e.s.mu.log ++ g.records f (BitVec.ofNat 16 n) e.s.cycles.stamp := by
  unfold StoreGroup.judge StoreGroup.records
  cases hh : g.health <;> by_cases h1 : g.marker = true <;> by_cases h2 : f g.content = true <;>
    simp [h1, h2, judgedAlert, logAlert, Management.logged, Config.logCapacity, hn]

end Sys2Proof.Machine
end

