-- ==== Sys2Proof/Laws/Cycles.lean ====
section
/-! SUPPORT. The end of a cycle: its order and tallies, drain completion, feed levels and ALERT, in the terms of Safety. -/

namespace Sys2Proof.Machine

/-! ### What handing over cannot do -/

theorem raiseCause_drain (c : Cause) (e : Ev) (h : e.s.rc.state ≠ .drain) : (raiseCause c e).s.rc.state ≠ .drain := by
  rw [raiseCause_s]
  unfold State.caused
  split
  · exact h
  · exact (by decide : RunState.halt ≠ .drain)
  · exact (by decide : RunState.halt ≠ .drain)
  · exact h

/-- Handing a message over never enters DRAIN. -/
theorem hand_drain (m : Message) (e : Ev) (h : e.s.rc.state ≠ .drain) : (hand m e).s.rc.state ≠ .drain := by
  unfold hand
  split
  · exact h
  · refine raiseCause_drain _ _ ?_
    split <;> exact h

theorem handAll_drain (ms : List Message) (e : Ev) (h : e.s.rc.state ≠ .drain) : (handAll ms e).s.rc.state ≠ .drain := by
  induction ms generalizing e with
  | nil => exact h
  | cons m ms ih => exact ih _ (hand_drain m e h)

theorem State.sameButSending_queues {s t : State} (h : s.sameButSending t) : t.queues = s.queues := by
  unfold State.sameButSending at h
  rw [h]

theorem State.sameButSending_phase {s t : State} (h : s.sameButSending t) : t.phase = s.phase := by
  unfold State.sameButSending at h
  rw [h]

/-- What an event owes survives a hand-over. -/
theorem Ev.owes_hand {before : List Alert} {e : Ev} (h : e.owes before) (m : Message) : (hand m e).owes before := by
  unfold hand
  split
  · exact Ev.owes_of_eq h rfl rfl
  · refine Ev.owes_raiseCause (Ev.owes_logAlert ?_ ..) _
    split
    · exact Ev.owes_of_eq h rfl rfl
    · exact h

theorem Ev.owes_handAll {before : List Alert} {e : Ev} (h : e.owes before) (ms : List Message) :
    (handAll ms e).owes before := by
  induction ms generalizing e with
  | nil => exact h
  | cons m ms ih => exact ih (Ev.owes_hand h m)

/-! ### Feed levels behind joined messages -/

theorem State.levelledFrom_ring (before : Queues) (f : Feeder) (s : State) (r : RingPort) :
    ({ s with ring := r }).levelledFrom before f = { s.levelledFrom before f with ring := r } := by
  unfold State.levelledFrom
  have h : ({ s with ring := r } : State).queues.fedBy f = s.queues.fedBy f := rfl
  rw [h]
  split <;> rfl

theorem State.relevelled_ring (before : Queues) (s : State) (r : RingPort) :
    ({ s with ring := r }).relevelled before = { s.relevelled before with ring := r } := by
  simp only [State.relevelled, State.levelledFrom_ring]

theorem State.relevelled_same (before : Queues) (s : State) : s.sameButSending (s.relevelled before) := by
  have h : ∀ (u : State) f, u.sameButSending (u.levelledFrom before f) := fun u f => by
    unfold State.levelledFrom
    split
    · exact State.sameButSending_refl _
    · exact State.sameButSending_of_eq u.ring u.mu u.rc _ rfl rfl
  exact State.sameButSending_trans (h _ _) (State.sameButSending_trans (h _ _) (h _ _))

theorem State.sameButSending_relevelled {before : Queues} {s t : State} (h : s.sameButSending t) :
    (s.relevelled before).sameButSending t := by
  have k : (s.relevelled before) = { s with feed := (s.relevelled before).feed } := by
    have hl : ∀ (u : State) f, u.levelledFrom before f = { u with feed := (u.levelledFrom before f).feed } := fun u f => by
      unfold State.levelledFrom
      split <;> rfl
    unfold State.relevelled
    rw [hl (((s.levelledFrom before .block).levelledFrom before .caseFeeder)) .jacket, hl (s.levelledFrom before .block), hl s]
  unfold State.sameButSending at *
  rw [k]
  exact h

theorem State.relevelled_mu (before : Queues) (s : State) : (s.relevelled before).mu = s.mu := by
  simp only [State.relevelled, State.levelledFrom_mu]

theorem State.relevelled_phase (before : Queues) (s : State) : (s.relevelled before).phase = s.phase :=
  State.sameButSending_phase (State.relevelled_same before s)

theorem State.relevelled_ringPort (before : Queues) (s : State) : (s.relevelled before).ring = s.ring := by
  have h := fun (u : State) f => (State.levelledFrom_fields before f u).2.2.2.2
  simp only [State.relevelled, h]

theorem State.alertFor_eq {s t u : State} (hm : t.mu = u.mu) (hn : t.ring.ownNode = u.ring.ownNode) :
    s.alertFor t = s.alertFor u := by
  unfold State.alertFor ownMessage
  rw [hm, hn]

/-- With room for `ms`, the feed orders and the ALERT, an event that hands `ms` over and then computes the feed levels
sends exactly these messages in that order. -/
theorem computeLevels_room {s : State} {before : Queues} {e : Ev} {ms : List Message} (hp : e.s.phase = .running)
    (ho : e.owes s.mu.log)
    (h : e.s.ring.outbound.length
      + (ms ++ e.feedMessages ++ e.s.relevelOrders before ++ s.alertFor (e.s.relevelled before)).length ≤ 32) :
    finish (computeLevels before (handAll ms e))
      = (e.s.relevelled before).sending
        (ms ++ e.feedMessages ++ e.s.relevelOrders before ++ s.alertFor (e.s.relevelled before)) := by
  simp only [List.length_append] at h
  rw [handAll_room (by omega)]
  obtain ⟨h1, h2, h3⟩ := computeLevels_spec before (e.joined ms)
  have hs : (e.joined ms).s.relevelled before
      = { e.s.relevelled before with ring := { e.s.ring with outbound := e.s.ring.outbound ++ ms } } :=
    State.relevelled_ring before e.s _
  have hf : (e.joined ms).feedMessages = e.feedMessages := rfl
  have hr : (e.joined ms).s.relevelOrders before = e.s.relevelOrders before := rfl
  have ha : List.replicate (computeLevels before (e.joined ms)).alertsDue
      (ownMessage (computeLevels before (e.joined ms)).s .alert 0 0 [1]) = s.alertFor (e.s.relevelled before) := by
    have hj : (e.joined ms).owes s.mu.log := Ev.owes_of_eq ho rfl rfl
    rw [Ev.owes_alertFor (Ev.owes_computeLevels hj before), h1, hs]
    exact State.alertFor_eq rfl (by rw [State.relevelled_ringPort])
  have hlen : (computeLevels before (e.joined ms)).alertsDue = (s.alertFor (e.s.relevelled before)).length := by
    rw [← ha, List.length_replicate]
  have hring : (computeLevels before (e.joined ms)).s.ring.outbound = e.s.ring.outbound ++ ms := by rw [h1, hs]
  rw [finish_room, ha, h2, hf, hr, h1, hs]
  · unfold State.sending
    simp only [State.relevelled_ringPort, List.append_assoc]
  · rw [h1, hs]
    exact (State.relevelled_phase before e.s).trans hp
  · rw [hring, h2, hf, hr, hlen]
    simp only [List.length_append]
    omega

/-! ### Drain completion -/

theorem PressTrain.records_eq_nil {t : PressTrain} :
    t.records = [] ↔ t = ⟨none, none, none, none, none, none⟩ := by
  obtain ⟨a, b, c, d, e, f⟩ := t
  cases a <;> cases b <;> cases c <;> cases d <;> cases e <;> cases f <;>
    simp [PressTrain.records, PressTrain.positions]

theorem Queues.drained_iff (q : Queues) :
    q.drained = true ↔ q.bq = [] ∧ q.tq = [] ∧ q.aq = [] ∧ q.pt = ⟨none, none, none, none, none, none⟩ := by
  simp only [Queues.drained, Bool.and_eq_true, List.isEmpty_iff, PressTrain.records_eq_nil]
  tauto

theorem purgeLeftovers (e : Ev) :
    purgeAll [.cq, .jq] e = (e.s.leftovers, { e with s := { e.s with
      queues := { e.s.queues with cq := [], jq := [] }
      totals := e.s.totals.talliedAll e.s.leftovers } }) := by
  have h : ∀ (ys zs : List Tally) (t : Totals), (t.talliedAll ys).talliedAll zs = t.talliedAll (ys ++ zs) := by
    intro ys
    induction ys with
    | nil => intros; rfl
    | cons y ys ih => intro zs t; exact ih zs (t.tallied y)
  simp only [purgeAll, purgeOne, countTallies, Queues.purgeTallies, Queues.clear, List.append_nil, h]
  rfl

/-- A completed drain: its state, and its tallies handed over (R138). -/
theorem completeDrain_eq (e : Ev) :
    completeDrain e = handTallies e.s.leftovers (enterConfig (logAlert .drained 0 0 0
      (BitVec.ofNat 16 e.s.leftovers.length) { e with s := { e.s with
        queues := { e.s.queues with cq := [], jq := [] }
        totals := e.s.totals.talliedAll e.s.leftovers } })) := by
  unfold completeDrain
  rw [purgeLeftovers]

theorem leftovers_length (s : State) : s.leftovers.length = s.queues.cq.length + s.queues.jq.length := by
  simp [State.leftovers]

/-! ### The end of a cycle -/

theorem handAll_append (ms ns : List Message) (e : Ev) : handAll (ms ++ ns) e = handAll ns (handAll ms e) := by
  induction ms generalizing e with
  | nil => rfl
  | cons m ms ih => exact ih (hand m e)

/-- The end of a cycle that does not complete a drain (R50, R76, R92, R119, R138). -/
theorem endCycle_goes {s u : State} {before : Queues} {removed : Bool} {order : Message} {ys : List Tally} {e : Ev}
    (hu : u = { e.s with totals := e.s.totals.talliedAll ys }) (hp : e.s.phase = .running) (ho : e.owes s.mu.log)
    (hends : ¬ (removed = true ∧ u.rc.state = .drain ∧ u.queues.bq = [] ∧ u.queues.tq = [] ∧ u.queues.aq = []
      ∧ u.queues.pt = ⟨none, none, none, none, none, none⟩)) :
    (u.relevelled before).handsOver
      (order :: ys.map (tallyMessage u) ++ e.feedMessages ++ u.relevelOrders before ++ s.alertFor (u.relevelled before))
      (finish (endCycle before removed order ys e)) := by
  have hc : countTallies ys e = { e with s := u } := by rw [hu]; rfl
  have hms : handTallies ys (hand order (countTallies ys e))
      = handAll (order :: ys.map (tallyMessage u)) { e with s := u } := by
    rw [hc, handTallies, handAll]
    congr 1
    have := hand_same order { e with s := u }
    unfold State.sameButSending at this
    refine List.map_congr_left fun y _ => ?_
    unfold tallyMessage ownMessage
    rw [this]
  have hcheck : ∀ x : Ev, u.sameButSending x.s → (u.rc.state ≠ .drain → x.s.rc.state ≠ .drain) →
      (if removed then checkDrain x else x) = x := by
    intro x hx hd
    cases removed
    · rfl
    · unfold checkDrain
      rw [if_pos rfl, if_neg]
      rintro ⟨h1, h2⟩
      rw [State.sameButSending_queues hx, Queues.drained_iff] at h2
      exact hends ⟨rfl, by_contra fun hn => hd hn h1, h2⟩
  have he : endCycle before removed order ys e
      = computeLevels before (handAll (order :: ys.map (tallyMessage u)) { e with s := u }) := by
    unfold endCycle
    simp only [hms]
    rw [hcheck]
    · exact handAll_same _ _
    · exact fun h => handAll_drain _ { e with s := u } h
  have hpu : u.phase = .running := by rw [hu]; exact hp
  have hou : ({ e with s := u } : Ev).owes s.mu.log := by rw [hu]; exact Ev.owes_of_eq ho rfl rfl
  have hfm : ({ e with s := u } : Ev).feedMessages = e.feedMessages := by rw [hu]; rfl
  rw [he]
  refine ⟨State.sameButSending_relevelled (State.sameButSending_trans (handAll_same _ { e with s := u })
    (State.sameButSending_trans (computeLevels_same _ _) (finish_same _))), fun h => ?_⟩
  have := computeLevels_room (s := s) (before := before) (e := { e with s := u })
    (ms := order :: ys.map (tallyMessage u)) hpu hou (by
      rw [hfm]
      rw [State.relevelled_ringPort] at h
      exact h)
  rw [hfm] at this
  exact this

end Sys2Proof.Machine
end

