-- ==== Sys2Proof/Laws/Full.lean ====
section
/-! SUPPORT. A full outbound queue: every message of an event is dropped, and the end of the event is the one Safety
states. -/

namespace Sys2Proof.Machine

/-! ### Dropping messages -/

@[simp] theorem State.dropping_nil (s : State) : s.dropping [] = s := rfl

theorem State.dropping_cons (m : Message) (ms : List Message) (s : State) :
    s.dropping (m :: ms) = (s.dropping [m]).dropping ms := rfl

theorem State.dropping_append (ms ns : List Message) (s : State) :
    s.dropping (ms ++ ns) = (s.dropping ms).dropping ns := List.foldl_append

@[simp] theorem State.dropping_ring (ms : List Message) (s : State) : (s.dropping ms).ring = s.ring := by
  induction ms generalizing s with
  | nil => rfl
  | cons m ms ih => rw [State.dropping_cons, ih]; exact State.caused_ring _ _

@[simp] theorem State.dropping_lineMap (ms : List Message) (s : State) : (s.dropping ms).lineMap = s.lineMap := by
  induction ms generalizing s with
  | nil => rfl
  | cons m ms ih => rw [State.dropping_cons, ih]; exact State.caused_lineMap _ _

@[simp] theorem State.dropping_phase (ms : List Message) (s : State) : (s.dropping ms).phase = s.phase := by
  induction ms generalizing s with
  | nil => rfl
  | cons m ms ih => rw [State.dropping_cons, ih]; exact State.caused_phase _ _

theorem State.caused_not_run (c : Cause) (s : State) : (s.caused c).rc.state ≠ .run := by
  unfold State.caused
  split <;> rename_i h
  · rw [h]; decide
  · exact (by decide : RunState.halt ≠ .run)
  · exact (by decide : RunState.halt ≠ .run)
  · exact h ▸ (by decide)

/-- A drop leaves RUN (R132, R154). -/
theorem State.dropping_not_run {ms : List Message} (h : ms ≠ []) (s : State) : (s.dropping ms).rc.state ≠ .run := by
  induction ms generalizing s with
  | nil => exact absurd rfl h
  | cons m ms ih =>
    rw [State.dropping_cons]
    by_cases k : ms = []
    · subst k; exact State.caused_not_run _ _
    · exact ih k _

theorem State.causeFeeds_not_run {s : State} (h : s.rc.state ≠ .run) : s.causeFeeds = [] := if_neg h

/-- What the own node and the line map give does not change as messages are dropped. -/
theorem State.dropping_feedOrder (ms : List Message) (s : State) (f : Feeder) (v : FeedLevel) :
    (s.dropping ms).feedOrder f v = s.feedOrder f v := by
  simp only [State.feedOrder, ownMessage, State.dropping_ring, State.dropping_lineMap]

/-! ### Handing over at a full queue -/

/-- A message handed to a full queue is dropped (R154). -/
theorem hand_full {m : Message} {e : Ev} (h : 32 ≤ e.s.ring.outbound.length) (hm : isProof15 m = false) :
    (hand m e).s = e.s.dropping [m] ∧ (hand m e).feeds = e.feeds ++ e.s.causeFeeds := by
  unfold hand
  rw [if_neg (by unfold Config.outboundCapacity; omega), hm, if_neg (by decide), raiseCause_s, raiseCause_feeds]
  refine ⟨?_, rfl⟩
  simp only [State.dropping, List.foldl, ← kindDst_eq]
  rfl

/-- Messages handed to a full queue are dropped in order; the first drop out of RUN forms the FEED PAUSE orders. -/
theorem handAll_full {ms : List Message} {e : Ev} (h : 32 ≤ e.s.ring.outbound.length)
    (hm : ∀ m ∈ ms, isProof15 m = false) :
    (handAll ms e).s = e.s.dropping ms
      ∧ (handAll ms e).feeds = e.feeds ++ (if ms = [] then [] else e.s.causeFeeds) := by
  induction ms generalizing e with
  | nil => exact ⟨rfl, (List.append_nil _).symm⟩
  | cons m ms ih =>
    obtain ⟨h1, h2⟩ := hand_full h (hm m List.mem_cons_self)
    obtain ⟨h3, h4⟩ := ih (e := hand m e) (by rw [h1]; simpa using h) fun x hx => hm x (List.mem_cons_of_mem _ hx)
    refine ⟨by rw [State.dropping_cons, handAll, h3, h1], ?_⟩
    have h5 : (hand m e).s.causeFeeds = [] := by
      rw [h1]; exact State.causeFeeds_not_run (State.dropping_not_run (by simp) _)
    rw [handAll, h4, h2, h5, if_neg (List.cons_ne_nil _ _)]
    simp

/-- Handing over FEED orders is handing over their messages (R52). -/
theorem handFeeds_eq (fs : List (Feeder × FeedLevel)) (e : Ev) :
    handFeeds fs e = handAll (fs.flatMap fun f => e.s.feedOrder f.1 f.2) e := by
  induction fs generalizing e with
  | nil => rfl
  | cons f fs ih =>
    have hs : ∀ g v, (handFeed f e).s.feedOrder g v = e.s.feedOrder g v := fun g v => by
      have := handFeed_same f e
      unfold State.sameButSending at this
      rw [this]; rfl
    rw [handFeeds, ih, List.flatMap_cons, handAll_append]
    simp only [hs]
    congr 1
    unfold handFeed State.feedOrder
    split <;> rfl

theorem feedOrder_not_proof (s : State) (fs : List (Feeder × FeedLevel)) :
    ∀ m ∈ fs.flatMap fun f => s.feedOrder f.1 f.2, isProof15 m = false := by
  intro m hm
  obtain ⟨f, -, hf⟩ := List.mem_flatMap.1 hm
  unfold State.feedOrder at hf
  split at hf
  · exact absurd hf (by simp)
  · rw [List.mem_singleton.1 hf]; rfl

/-- The FEED orders of an event at a full queue are dropped in order. -/
theorem flushFeeds_full {e : Ev} (h : 32 ≤ e.s.ring.outbound.length) :
    (flushFeeds e).s = e.s.dropping e.feedMessages
      ∧ (flushFeeds e).feeds = if e.feedMessages = [] then [] else e.s.causeFeeds := by
  have := handAll_full (e := { e with feeds := [] }) h (feedOrder_not_proof e.s e.feeds)
  unfold flushFeeds
  rw [handFeeds_eq]
  exact this

theorem Ev.feedMessages_of {e : Ev} {s : State} {fs : List (Feeder × FeedLevel)} {ms : List Message}
    (hs : e.s = s.dropping ms) (hf : e.feeds = fs) : e.feedMessages = fs.flatMap fun f => s.feedOrder f.1 f.2 := by
  unfold Ev.feedMessages
  rw [hs, hf]
  simp only [State.dropping_feedOrder]

theorem flushFeeds_nil {e : Ev} (h : e.feeds = []) : flushFeeds e = e := by
  obtain ⟨s, feeds, n⟩ := e
  cases h
  rfl

/-- The two rounds of FEED orders at the end of an event whose messages were all dropped: the orders formed, and those of
the halt that the first drop brought about (R52, R132). -/
theorem flushFeeds_twice_full {e : Ev} {ms : List Message} (h : 32 ≤ e.s.ring.outbound.length)
    (hm : ∀ m ∈ ms, isProof15 m = false) :
    let l := ms ++ e.feedMessages
    let x := flushFeeds (flushFeeds (handAll ms e))
    x.feeds = [] ∧ x.s = (e.s.dropping l).dropping (if l = [] then [] else e.s.causeOrders) := by
  obtain ⟨h1, h2⟩ := handAll_full h hm
  have hq : 32 ≤ (handAll ms e).s.ring.outbound.length := by rw [h1]; simpa using h
  obtain ⟨h3, h4⟩ := flushFeeds_full hq
  have hfm : (handAll ms e).feedMessages = e.feedMessages ++ (if ms = [] then [] else e.s.causeOrders) := by
    rw [Ev.feedMessages_of h1 h2, List.flatMap_append]
    congr 1
    split
    · rfl
    · exact State.causeFeeds_messages e.s
  have hq' : 32 ≤ (flushFeeds (handAll ms e)).s.ring.outbound.length := by rw [h3]; simpa using hq
  by_cases hms : ms = []
  · subst hms
    simp only [List.nil_append]
    rw [show handAll [] e = e from rfl] at hq' ⊢
    obtain ⟨h3, h4⟩ := flushFeeds_full h
    obtain ⟨h5, h6⟩ := flushFeeds_full hq'
    have hfm' : (flushFeeds e).feedMessages = if e.feedMessages = [] then [] else e.s.causeOrders := by
      rw [Ev.feedMessages_of h3 h4]
      by_cases k : e.feedMessages = []
      · rw [if_pos k, if_pos k]; rfl
      · rw [if_neg k, if_neg k]; exact State.causeFeeds_messages e.s
    refine ⟨?_, by rw [h5, hfm', h3]⟩
    rw [h6, h3]
    split
    · rfl
    · rename_i hne
      refine State.causeFeeds_not_run (State.dropping_not_run (fun h0 => hne ?_) _)
      rw [hfm', if_pos h0]
  · have h7 : (flushFeeds (handAll ms e)).feeds = [] := by
      rw [h4, h1, State.causeFeeds_not_run (State.dropping_not_run hms _), ite_self]
    rw [flushFeeds_nil h7]
    refine ⟨h7, ?_⟩
    rw [h3, h1, hfm, if_neg hms, if_neg (by simp [hms]), State.dropping_append, State.dropping_append]

/-- The ALERT an event owes is no PROOF message. -/
theorem alertFor_not_proof (s t : State) : ∀ m ∈ s.alertFor t, isProof15 m = false := by
  intro m hm
  unfold State.alertFor at hm
  split at hm
  · rw [List.mem_singleton.1 hm]; rfl
  · exact absurd hm (by simp)

theorem State.caused_log_ne_nil (c : Cause) {s : State} (h : s.mu.log ≠ []) : (s.caused c).mu.log ≠ [] := by
  unfold State.caused
  split
  · exact h
  · exact Management.logged_log_ne_nil _ _
  · exact Management.logged_log_ne_nil _ _
  · exact h

theorem State.dropping_log_ne_nil (ms : List Message) {s : State} (h : s.mu.log ≠ []) : (s.dropping ms).mu.log ≠ [] := by
  induction ms generalizing s with
  | nil => exact h
  | cons m ms ih => exact ih (State.caused_log_ne_nil _ (Management.logged_log_ne_nil _ _))

/-- The ALERT an event owes does not depend on the drops behind a drop (R166). -/
theorem State.alertFor_dropping (s u : State) (l ns : List Message) (h : l = [] → ns = []) :
    s.alertFor ((u.dropping l).dropping ns) = s.alertFor (u.dropping l) := by
  cases l with
  | nil => rw [h rfl]; rfl
  | cons m l =>
    have h1 : (u.dropping (m :: l)).mu.log ≠ [] :=
      State.dropping_log_ne_nil l (State.caused_log_ne_nil _ (Management.logged_log_ne_nil _ _))
    have h2 := State.dropping_log_ne_nil ns h1
    unfold State.alertFor ownMessage
    simp only [State.dropping_ring, ne_eq, h1, h2]

theorem Ev.owes_flushFeeds {before : List Alert} {e : Ev} (h : e.owes before) : (flushFeeds e).owes before := by
  unfold flushFeeds
  rw [handFeeds_eq]
  exact Ev.owes_handAll (e := { e with feeds := [] }) h _

/-- The two rounds of ALERT and FEED messages that end an event whose other messages were all dropped (R166, log 11). -/
theorem flushAlerts_full {s : State} {e : Ev} (h : 32 ≤ e.s.ring.outbound.length) (hf : e.feeds = [])
    (ho : e.owes s.mu.log) :
    (flushAlerts (flushFeeds (flushAlerts e))).s
      = (e.s.dropping (s.alertFor e.s)).dropping (if s.alertFor e.s = [] then [] else e.s.causeOrders) := by
  have hA := Ev.owes_alertFor ho
  obtain ⟨h1, h2⟩ := handAll_full (e := { e with alertsDue := 0 }) h (alertFor_not_proof s e.s)
  have hx : flushAlerts e = handAll (s.alertFor e.s) { e with alertsDue := 0 } := by
    unfold flushAlerts; rw [hA]
  rw [← hx] at h1 h2
  have hd : (flushAlerts e).owes (if s.alertFor e.s = [] then e.s.mu.log else (flushAlerts e).s.mu.log) := by
    rw [hx]
    split
    · rename_i k
      rw [k]
      exact ⟨by simp [handAll], id⟩
    · refine ⟨?_, id⟩
      have hn : e.s.mu.log ≠ [] := by
        rename_i k
        unfold State.alertFor at k
        by_contra h0
        exact k (if_neg fun hc => hc.2 h0)
      have := (Ev.owes_handAll (before := e.s.mu.log) (e := { e with alertsDue := 0 }) ⟨by simp, id⟩ (s.alertFor e.s)).1
      rw [this, if_neg fun hc => hn hc.1, if_neg fun hc => hc.2 hc.1]
  have hzero : (flushFeeds (flushAlerts e)).alertsDue = 0 := by
    by_cases k : s.alertFor e.s = []
    · have hfe : (flushAlerts e).feeds = [] := by rw [h2, if_pos k, hf]; rfl
      rw [flushFeeds_nil hfe, hx, k]
      rfl
    · rw [if_neg k] at hd
      have := (Ev.owes_flushFeeds hd).1
      have hn : (flushAlerts e).s.mu.log ≠ [] := by
        rw [h1]
        cases hl : s.alertFor e.s with
        | nil => exact absurd hl k
        | cons m l => exact State.dropping_log_ne_nil l (State.caused_log_ne_nil _ (Management.logged_log_ne_nil _ _))
      rw [this, if_neg fun hc => hn hc.1]
  have hq : 32 ≤ (flushAlerts e).s.ring.outbound.length := by rw [h1]; simpa using h
  have hz : ∀ x : Ev, x.alertsDue = 0 → (flushAlerts x).s = x.s := fun x hx0 => by
    unfold flushAlerts; rw [hx0]; rfl
  rw [hz _ hzero, (flushFeeds_full hq).1, Ev.feedMessages_of h1 h2, h1]
  congr 1
  simp only [hf, List.nil_append]
  by_cases k : s.alertFor e.s = []
  · rw [if_pos k, if_pos k]; rfl
  · rw [if_neg k, if_neg k]; exact State.causeFeeds_messages e.s

/-- The messages an event that finds the queue full ends with are all dropped (R154). -/
theorem finish_full {s : State} {e : Ev} {ms : List Message} (h : 32 ≤ e.s.ring.outbound.length)
    (hm : ∀ m ∈ ms, isProof15 m = false) (hp : e.s.phase = .running) (ho : e.owes s.mu.log) :
    finish (handAll ms e) = s.turningAway e.s (ms ++ e.feedMessages) := by
  obtain ⟨hf, hs⟩ := flushFeeds_twice_full h hm
  have hend := flushAlerts_full (s := s) (by rw [hs]; simpa using h) hf
    (Ev.owes_flushFeeds (Ev.owes_flushFeeds (Ev.owes_handAll ho ms)))
  have hfin : finish (handAll ms e)
      = (flushAlerts (flushFeeds (flushAlerts (flushFeeds (flushFeeds (handAll ms e)))))).s.sending [] := by
    unfold finish
    have hph := State.sameButSending_phase (handAll_same ms e)
    have : (flushAlerts (flushFeeds (flushAlerts (flushFeeds (flushFeeds (handAll ms e)))))).s.phase = .running := by
      rw [hend, hs]
      simpa using hp
    simp only [this, if_true, State.sending, List.append_nil]
  rw [hfin, hend, hs]
  generalize ms ++ e.feedMessages = l
  unfold State.turningAway
  rw [State.alertFor_dropping s e.s l _ (fun k => if_pos k)]
  by_cases k : l = []
  · subst k
    simp only [if_true, State.dropping_nil]
    by_cases k : s.alertFor e.s = []
    · simp only [k, if_true, State.dropping_nil]
    · simp only [k, if_false]
      rfl
  · have hr : (e.s.dropping l).rc.state ≠ .run := State.dropping_not_run k _
    have hr' : ((e.s.dropping l).dropping e.s.causeOrders).rc.state ≠ .run := by
      by_cases j : e.s.causeOrders = []
      · rw [j]; exact hr
      · exact State.dropping_not_run j _
    simp only [if_neg k]
    have hc : ((e.s.dropping l).dropping e.s.causeOrders).causeOrders = [] := if_neg hr'
    rw [hc, ite_self]
    rfl

end Sys2Proof.Machine
end

