-- ==== Sys2Proof/Laws/Stored.lean ====
section
/-! SUPPORT. The stored forms of the settings: what a STORE writes of a working copy, the load reads back. -/

namespace Sys2Proof.Machine

@[simp] theorem ComparatorConfig.record_config (c : ComparatorConfig) : c.record.config = c := by
  obtain ⟨d, e, n, x, y⟩ := c
  cases d <;> cases e <;> rfl

/-- A configuration in range has a record in range (R103, R170). -/
theorem ComparatorConfig.record_inRange (c : ComparatorConfig) : c.record.inRange = c.inRange := by
  rw [ComparatorRecord.inRange, ComparatorConfig.record_config]
  obtain ⟨d, e, n, x, y⟩ := c
  cases d <;> cases e <;> rfl

@[simp] theorem ProfileEntry.record_entry (e : ProfileEntry) : e.record.entry = e := by
  obtain ⟨p, h⟩ := e
  cases h <;> rfl

@[simp] theorem Profile.record_profile (p : Profile) : p.record.profile = p := by
  simp only [Profile.record, ProfileRecord.profile, ProfileEntry.record_entry]

/-- Every profile has a record in range: its heat bytes are 0 or 1 (R88, R170). -/
@[simp] theorem Profile.record_inRange (p : Profile) : p.record.inRange = true := by
  have h : ∀ e : ProfileEntry, decide (e.record.heat.toNat ≤ 1) = true := fun ⟨_, h⟩ => by cases h <;> rfl
  simp only [ProfileRecord.inRange, ProfileRecord.entries, Profile.record, List.all_cons, List.all_nil, h, Bool.and_self]

/-- The entries a stored profile gives (Table 9-5). -/
theorem ProfileRecord.profile_entries (r : ProfileRecord) : r.profile.entries = r.entries.map EntryRecord.entry := rfl

@[simp] theorem protectLevel_val {v : Byte} (h : protectInRange v = true) : (protectLevel v).val = v.toNat := by
  simp only [protectInRange, decide_eq_true_eq] at h
  exact Nat.mod_eq_of_lt (by omega)

@[simp] theorem protectLevel_ofNat (l : Fin 4) : protectLevel (BitVec.ofNat 8 l.val) = l := by
  revert l
  decide

theorem Table.map_map {α β γ : Type} {n : Nat} (f : α → β) (g : β → γ) (t : Table α n) :
    (t.map f).map g = t.map fun x => g (f x) := by
  simp [Table.map, Function.comp_def]

theorem Table.map_id {α : Type} {n : Nat} (f : α → α) (h : ∀ x, f x = x) (t : Table α n) : t.map f = t := by
  obtain ⟨l, hl⟩ := t
  simp [Table.map, show f = id from funext h]

/-- Working copies stored and taken again are what they were, the comparators OFF with tally 0 (R95, R105, R172). -/
theorem State.withSettings_settings (s : State) :
    s.withSettings s.settings
      = { s with iron := { s.iron with comparators := s.iron.comparators.map fun c => Comparator.off c.config } } := by
  have hp : (s.profiles.map Profile.record).map ProfileRecord.profile = s.profiles := by
    rw [Table.map_map]
    exact Table.map_id _ Profile.record_profile _
  simp only [State.withSettings, State.settings, protectLevel_ofNat, hp, Table.map_map, ComparatorConfig.record_config]

end Sys2Proof.Machine
end

