-- ==== Sys2Proof/Tests/Slice0.lean ====
section
/-! SUPPORT. Tests: the ill-formed commands that WellFormed refuses, worked cases of the manual, one step each, and for
every statement with hypotheses a witness that they can all be met. -/

namespace Sys2Proof.Tests

-- One test after the other: at once they take more threads than the memory limit leaves room for.
set_option Elab.async false

open Sys2Proof Sys2Proof.Machine

/-! ### States and commands -/

/-- The part in CONFIG with the link UP, the load over and all nine roles assigned to nodes 11 to 19. -/
def line : State :=
  { State.reset with
    phase := .running
    ring := { State.reset.ring with link := .up }
    lineMap := ⟨[11, 12, 13, 14, 15, 16, 17, 18, 19], rfl⟩ }

/-- `line` with a calibration record and one title, in slot 0 of the active bank. -/
def ready : State :=
  { line with
    ccu := ⟨⟨200, 8000, 4200, 4608, 2000, -1200, 300⟩, true⟩
    titles := { line.titles with
      bankA := (Table.fill 512 TitleRecord.empty).set 0
        ⟨100, ⟨5, 0, 2850, 40, 150, 300, 2400, 1700, 5, 12, true, false⟩, 1⟩ }
    dose := { line.dose with recipes := line.dose.recipes.set 5 ⟨40, 40, 7000, 30⟩ } }

/-- `ready` in RUN with the levels of empty queues sent. -/
def running : State := { ready with rc := ⟨.run, CauseSet.empty, .released⟩, feed := ⟨.high, .high, .high⟩ }

/-- `ready` in HALT for MASTER. -/
def halted : State := { ready with rc := ⟨.halt, CauseSet.empty.add .master, .low⟩ }

/-- A book on its way. -/
def book (serial : Serial) (jacketKey : ItemKey) : BookRecord :=
  ⟨serial, 100, 2866, jacketKey, some 12, ⟨false, false, false⟩, Waiting.fresh⟩

/-- `ready` in DRAIN with one book left, at the jacketer. -/
def draining : State :=
  { ready with rc := ⟨.drain, CauseSet.empty, .released⟩, queues := { Queues.empty with aq := [book 6101 0] } }

/-- The header of a message of node 0 to the part. -/
def master : Envelope := ⟨62, 0, 7⟩

/-- The header of a broadcast of station `src`. -/
def station (src : Node) : Envelope := ⟨63, src, 0⟩

/-- The manual's ordinary block (2.4), serial 6101. -/
def blockPayload : List Byte := [1] ++ nat4 6101 ++ [0, 0, 100] ++ nat2 3000 ++ nat2 2300

/-- A case of key 5 with spine width 3100. -/
def casePayload : List Byte := [2] ++ nat4 8201 ++ nat2 5 ++ nat2 3100

/-- A jacket of key 41. -/
def jacketPayload : List Byte := [3] ++ nat4 9301 ++ nat2 41

/-- The block entry of that block. -/
def blockEntry : BlockEntry :=
  ⟨6101, 100, some ⟨0, ⟨5, 0, 2850, 40, 150, 300, 2400, 1700, 5, 12, true, false⟩⟩, 2866, false, false, Waiting.fresh, 0⟩

/-- What a command makes of a state. -/
def after (c : Instr) (s : State) : State :=
  match exec c s with
  | .next t => t
  | .fault _ => s
  | .refused _ => s

/-! ### Well-formed commands -/

theorem test_wellFormed_groupsWritten : (Instr.powerOnReset 7).wellFormed = true ∧ (Instr.powerOnReset 8).wellFormed = false := by
  decide

theorem test_wellFormed_badBytes :
    (Instr.badMessage [1, 2, 3]).wellFormed = true ∧ (Instr.badMessage (encode ⟨5, 4, 0x20, 0, []⟩)).wellFormed = false
      ∧ (Instr.consecutiveBadLimit (encode ⟨5, 4, 0x20, 0, []⟩)).wellFormed = false := by
  decide +kernel

theorem test_wellFormed_header :
    (Instr.forwardMessage ⟨64, 1, 1, 0, []⟩).wellFormed = false ∧ (Instr.forwardMessage ⟨5, 63, 1, 0, []⟩).wellFormed = false
      ∧ (Instr.unknownKind ⟨5, 1, 1, 0, List.replicate 57 0⟩).wellFormed = false
      ∧ (Instr.strippedOrder ⟨64, 62, 0x11, 0, []⟩).wellFormed = false := by
  decide

theorem test_wellFormed_sightRoles :
    (Instr.blockSight (station 11) casePayload).wellFormed = false
      ∧ (Instr.caseSight (station 12) jacketPayload).wellFormed = false
      ∧ (Instr.jacketSight (station 13) blockPayload).wellFormed = false
      ∧ (Instr.caseSight (station 12) casePayload).wellFormed = true := by
  decide

theorem test_wellFormed_cycleRoles :
    (Instr.casingCycle (station 17) [8, 0, 0, 0]).wellFormed = false
      ∧ (Instr.pressIndex (station 18) [7, 0, 0, 0]).wellFormed = false
      ∧ (Instr.jacketCycle (station 19) [8, 0, 0, 0]).wellFormed = false
      ∧ (Instr.itemLost (station 17) [7, 0]).wellFormed = false
      ∧ (Instr.starved (station 18) [8, 0, 0, 0]).wellFormed = false
      ∧ (Instr.fitFailLimit (station 18) [8, 0, 0, 0]).wellFormed = false
      ∧ (Instr.senseStale (station 17) [7, 0, 0, 0]).wellFormed = false
      ∧ (Instr.drainComplete ⟨62, 19, 0x13, 0, []⟩).wellFormed = false := by
  decide

theorem test_wellFormed_readings :
    (Instr.sense ⟨64, 18, 0⟩ [0, 0, 0]).wellFormed = false ∧ (Instr.ironAlarmOn (station 18) [0]).wellFormed = false
      ∧ (Instr.ironAlarmOff (station 18) [0]).wellFormed = false ∧ (Instr.mark ⟨63, 63, 0⟩ [0, 1]).wellFormed = false := by
  decide

theorem test_wellFormed_requests :
    (Instr.start ⟨64, 0, 0⟩ [0]).wellFormed = false ∧ (Instr.purge master (List.replicate 56 0)).wellFormed = false
      ∧ (Instr.titleWrite ⟨62, 63, 0⟩ [0, 0, 1]).wellFormed = false
      ∧ (Instr.writeUnknownRegion master (List.replicate 57 0)).wellFormed = false
      ∧ (Instr.alertsRead ⟨64, 0, 0⟩ [0x14, 0, 0, 3]).wellFormed = false
      ∧ (Instr.proofReturn ⟨62, 63, 0⟩ []).wellFormed = false ∧ (Instr.strippedOrder ⟨17, 62, 0x20, 0, []⟩).wellFormed = false := by
  decide

/-! ### Worked cases of the manual -/

/-- The check value of the CRC: 0x29B1 for the nine characters "123456789" (R145). -/
theorem test_crc_checkValue : crc [0x31, 0x32, 0x33, 0x34, 0x35, 0x36, 0x37, 0x38, 0x39] = 0x29B1 := by decide +kernel

/-- The ordinary block of 2.4. -/
theorem test_caliper_ordinaryBlock :
    correct ⟨200, 8000, 4200, 4608, 2000, -1200, 300⟩ 3000 2300 = ⟨2866, false⟩ := by decide +kernel

/-- The upper limit of 2.4; a raw thickness of 20000 gives the same. -/
theorem test_caliper_upperLimit :
    correct ⟨0, 8000, 4200, 65535, 2000, 0, 0⟩ 16383 2000 = ⟨12000, true⟩
      ∧ correct ⟨0, 8000, 4200, 65535, 2000, 0, 0⟩ 20000 2000 = ⟨12000, true⟩ := by decide +kernel

/-- The fits of 2.4: spine widths 3100, 3000 and 3200 on a block of 2866. -/
theorem test_fit_ordinaryBlock :
    (fits ⟨5, 0, 2850, 40, 150, 300, 2400, 1700, 5, 12, true, false⟩ 3100 2866,
      fits ⟨5, 0, 2850, 40, 150, 300, 2400, 1700, 5, 12, true, false⟩ 3000 2866,
      fits ⟨5, 0, 2850, 40, 150, 300, 2400, 1700, 5, 12, true, false⟩ 3200 2866) = (true, false, false) := by decide

/-- The fourth book of 2.8: 224 shots, carry 1480, the right side untouched. -/
theorem test_dose_fourthBook :
    let u : DoseUnit := ⟨(Table.fill 32 Recipe.default).set 5 ⟨40, 40, 7000, 30⟩, (Table.fill 64 0).set 10 6360⟩
    let r := u.dose ⟨5, 0, 2850, 40, 150, 300, 2400, 1700, 5, 12, true, false⟩
    (r.left.shots, r.left.carry, r.right.shots, r.right.carry) = (224, 1480, 0, 0) := by decide +kernel

/-- The clamped shots of 2.8: S 19000, 19230 and 19250. -/
theorem test_dose_clamping :
    let d : TitleData := ⟨5, 0, 2850, 40, 150, 300, 4500, 3500, 9, 12, true, true⟩
    let left := fun shot => (DoseUnit.dose ⟨(Table.fill 32 Recipe.default).set 9 ⟨500, 500, shot, 0⟩, Table.fill 64 0⟩ d).left
    (left 19000, left 19230, left 19250) = (⟨4095, 0, true⟩, ⟨4095, 3150, false⟩, ⟨4090, 17500, false⟩) := by decide +kernel

/-! ### One step each -/

theorem test_blockSight_enqueues :
    (after (.blockSight (station 11) blockPayload) running).queues.bq = [blockEntry] := by decide +kernel

theorem test_sight_wrongSource :
    (after (.blockSight (station 12) blockPayload) running).mu.log.map (fun a => (a.code, a.stage, a.detail))
      = [(.roleMismatch, 1, 12)] := by decide +kernel

theorem test_casingCycle_match :
    let s := { running with queues := { Queues.empty with bq := [blockEntry], cq := [⟨8201, 5, 3100, Waiting.fresh⟩] } }
    let t := after (.casingCycle (station 17) [7, 0, 1, 3]) s
    (t.queues.bq, t.queues.cq, t.queues.tq.map BookRecord.serial, t.totals.cases.good) = ([], [], [6101], 1)
      ∧ t.ring.outbound.head? = some ⟨17, 62, 0x11, 0, [0, 1, 1, 1, 0, 223, 0, 0, 0, 0, 23, 213]⟩ := by decide +kernel

theorem test_pressIndex_phantom :
    (after (.pressIndex (station 18) [8, 0, 1, 1]) running).queues.pt.p1.map (fun r => (r.serial, r.flags.untracked))
      = some (0, true) := by decide +kernel

theorem test_jacketCycle_completesDrain :
    let t := after (.drainComplete ((station 19).message 2 [9, 0, 1, 1])) draining
    (t.rc.state, t.totals.blocks.good, t.mu.log.map Alert.code) = (.config, 1, [.drained]) := by decide +kernel

theorem test_drain_halts_when_order_drops :
    let s := { draining with ring := { draining.ring with outbound := List.replicate 32 ⟨0, 62, 0x29, 0, [1]⟩ } }
    (after (.jacketCycle (station 19) [9, 0, 1, 1]) s).rc = ⟨.halt, CauseSet.empty.add .outboundFull, .low⟩ := by decide +kernel

theorem test_cycle_gap_halts :
    let s := { running with cycles := ⟨some 65535, none, none, 0⟩ }
    (after (.casingCycle (station 17) [7, 0, 0, 0]) s).rc.state = .run
      ∧ (after (.casingCycle (station 17) [7, 0, 1, 0]) s).rc.causes = CauseSet.empty.add .tracking := by decide +kernel

theorem test_halt_pauses_feeders :
    let t := after (.halt master [0]) running
    (t.rc.stopN, t.ring.outbound.map Message.kind) = (.low, [0x10, 0x10, 0x10, 0x29]) := by decide +kernel

theorem test_start_refused_without_calibration :
    (after (.start master [0]) line).ring.tx = .own ⟨0, 62, 0x28, 7, [8, 1]⟩ := by decide +kernel

theorem test_mark_clears_carries :
    let s := { ready with dose := { ready.dose with carries := (Table.fill 64 0).set 10 2120 } }
    let t := after (.mark master [0, 7]) s
    (t.dose.carries.get 10, t.titles.lastMark) = (0, 7) := by decide +kernel

theorem test_badMessage_ends_up :
    let s := { running with ring := { running.ring with consecBad := 7 } }
    let t := after (.consecutiveBadLimit [1, 2, 3]) s
    (t.ring.link, t.rc.causes.link, t.ring.linkErrors) = (.acquiring, true, 1) := by decide +kernel

theorem test_protectWrite_needs_guard :
    (after (.protectWrite master .low [0, 0, 1, 0]) ready).titles.protect = 3
      ∧ (after (.protectWrite master .high [0, 0, 1, 0]) ready).titles.protect = 0 := by decide +kernel

theorem test_decodeTableWord_none : decodeTableWord 8 5 = none := rfl

/-! ### Witnesses: banks -/

/-- A bank with one occupied slot holds no key twice. -/
theorem unique_one (i : Fin 512) (r : TitleRecord) : Bank.unique ((Table.fill 512 TitleRecord.empty).set i r) := by
  intro a c ha hac
  simp only [Table.get_set, Table.get_fill] at ha hac
  by_cases h : i = a
  · by_cases k : i = c
    · exact h.symm.trans k
    · rw [if_pos h] at ha
      rw [if_pos h, if_neg k] at hac
      exact absurd hac ha
  · rw [if_neg h] at ha
    exact absurd rfl ha

theorem unique_blank : Bank.unique (Table.fill 512 TitleRecord.empty) := by
  intro a c ha
  exact absurd (by simp [TitleRecord.empty]) ha

/-! ### Witnesses: each statement's hypotheses can be met -/

theorem test_StepRunsFrontCommand_idle : State.reset.pending = [] := rfl

theorem test_PowerOnResetValues_store :
    State.reset.store.op = .idle
      ∧ ({ State.reset.store with op := .inFlight Settings.default } : Store).op = .inFlight Settings.default
      ∧ (1 ≤ 1 ∧ ¬ 2 ≤ 1) ∧ (7 ≤ 7 ∧ ¬ 1 ≤ 0) := by decide +kernel

/-- The state a power-on reset leaves, with a store in which every group is present and clean. -/
def stored : State :=
  { State.reset with
    store :=
      ⟨⟨true, 1, .clean⟩, ⟨true, ⟨Calibration.default, true⟩, .corrected⟩, ⟨true, ComparatorRecord.defaults, .clean⟩,
        ⟨true, Limits.default, .clean⟩, ⟨true, Table.fill 9 62, .clean⟩,
        ⟨true, ⟨Table.fill 32 Recipe.default, Table.fill 64 Profile.zero.record⟩, .clean⟩, ⟨true, 0, .clean⟩, .idle⟩ }

/-- No new error in any cell. -/
def sameCells : CellReport :=
  ⟨⟨.clean, none⟩, ⟨.clean, none⟩, ⟨.clean, none⟩, ⟨.clean, none⟩, ⟨.clean, none⟩, ⟨.clean, none⟩, ⟨.clean, none⟩⟩

/-- Words changed by errors that the check code does not show: enable 2 in comparator 3, heat 2 at position 6 of profile
63, protect level 4. -/
def slippedCells : CellReport :=
  { sameCells with
    comparators := ⟨.clean, some (ComparatorRecord.defaults.set 3 ⟨1, 2, 2, 1400, 1500⟩)⟩
    recipes := ⟨.clean, some ⟨Table.fill 32 Recipe.default,
      (Table.fill 64 Profile.zero.record).set 63 ⟨⟨0, 0⟩, ⟨0, 0⟩, ⟨0, 0⟩, ⟨0, 0⟩, ⟨0, 0⟩, ⟨0, 2⟩⟩⟩⟩
    protect := ⟨.clean, some 4⟩ }

theorem test_wellFormed_cells :
    (Instr.powerOnLoad slippedCells).wellFormed = true
      ∧ (Instr.powerOnLoad { sameCells with limits := ⟨.clean, some { Limits.default with stale := 256 }⟩ }).wellFormed = false := by
  decide +kernel

/-- A group whose marker is set and whose words need no correction is bad when a value is out of range (R170). -/
theorem test_powerOnLoad_valueOutOfRange :
    let t := after (.powerOnLoad slippedCells) stored
    t.mu.log.map (fun a => (a.code, a.detail)) = [(.storeFixed, 2), (.storeBad, 3), (.storeBad, 6), (.storeBad, 7)]
      ∧ t.titles.protect = 3 ∧ (t.iron.comparators.get 3).config.enable = true ∧ t.ring.ownNode = 1 := by decide +kernel

theorem test_PowerOnLoadTakesSettings_start :
    State.reset.phase = .held ∧ State.reset.mu = ⟨[], false, .low⟩ ∧ State.reset.ring.outbound = []
      ∧ stored.phase = .held ∧ stored.mu = ⟨[], false, .low⟩ ∧ stored.ring.outbound = [] := by decide +kernel

theorem test_PowerOnLoadTakesSettings_usable :
    let g := stored.store.aged sameCells
    g.node.usable stationNode ∧ g.caliper.usable (fun c => c.record.inRange)
      ∧ g.comparators.usable comparatorsInRange ∧ g.limits.usable Limits.inRange
      ∧ g.lineMap.usable lineMapInRange ∧ g.recipes.usable RecipeGroup.inRange ∧ g.protect.usable protectInRange := by
  unfold StoreGroup.usable
  decide +kernel

theorem test_PowerOnLoadTakesSettings_bad :
    let g := State.reset.store.aged sameCells
    ¬ g.node.usable stationNode ∧ ¬ g.caliper.usable (fun c => c.record.inRange)
      ∧ ¬ g.comparators.usable comparatorsInRange ∧ ¬ g.limits.usable Limits.inRange
      ∧ ¬ g.lineMap.usable lineMapInRange ∧ ¬ g.recipes.usable RecipeGroup.inRange
      ∧ ¬ g.protect.usable protectInRange := by
  unfold StoreGroup.usable
  decide +kernel

theorem test_LoadCompleteOpensRing :
    ({ State.reset with phase := .loading } : State).phase = .loading ∧ State.reset.phase ≠ .running
      ∧ (carried (.start master [0])).isSome = true := by decide

theorem test_LinkFollowsCarrier :
    line.phase = .running ∧ line.ring.link = .up ∧ line.ring.link ≠ .down
      ∧ ({ line.ring with link := .acquiring } : RingPort).link = .acquiring
      ∧ ({ line.ring with link := .down } : RingPort).link = .down := by decide +kernel

theorem test_BadMessagesJudgedAndCounted :
    line.phase = .running ∧ decode [1, 2, 3] = none ∧ ¬ (line.ring.link = .up ∧ 7 ≤ line.ring.consecBad)
      ∧ 7 ≤ ({ line.ring with consecBad := 7 } : RingPort).consecBad := by decide +kernel

theorem test_WireRoundTrip :
    goodMessage ⟨63, 62, 0, 0, List.replicate 56 0⟩ = true
      ∧ decode (encode ⟨63, 62, 0x20, 7, [1, 0]⟩) = some ⟨63, 62, 0x20, 7, [1, 0]⟩ := by decide +kernel

theorem test_ForwardedMessages :
    carried (.forwardMessage ⟨63, 5, 0x20, 0, []⟩) = some ⟨63, 5, 0x20, 0, []⟩
      ∧ carried (.protectWrite ⟨44, 5, 0⟩ .high []) = some ⟨44, 5, 0x21, 0, [9]⟩ ∧ line.hears ⟨44, 5, 0x21, 0, [9]⟩
      ∧ line.hears ⟨63, 5, 0x20, 0, []⟩ ∧ (63 : Node) ≠ line.ring.ownNode
      ∧ ¬ ((63 : Node) = 63 ∧ ((0x20 : Byte) = 1 ∨ (0x20 : Byte) = 2 ∨ (0x20 : Byte) = 3 ∨ (0x20 : Byte) = 4)) := by
  unfold State.hears
  decide +kernel

theorem test_ForeignMessagesIgnored :
    carried (.start ⟨62, 5, 0⟩ [0]) = some ⟨62, 5, 0x20, 0, [1, 0]⟩ ∧ line.hears ⟨62, 5, 0x20, 0, [1, 0]⟩
      ∧ carried (.mark ⟨62, 0, 0⟩ [0]) = some ⟨62, 0, 4, 0, [0]⟩ ∧ line.hears ⟨62, 0, 4, 0, [0]⟩
      ∧ carried (.forwardMessage ⟨62, 5, 0x30, 0, []⟩) = some ⟨62, 5, 0x30, 0, []⟩ ∧ line.hears ⟨62, 5, 0x30, 0, []⟩ := by
  unfold State.hears
  decide +kernel

theorem test_UnknownKindAnswered : line.hears ⟨62, 0, 0xFF, 0, []⟩ ∧ Kind.ofCode 0xFF = none := by
  unfold State.hears
  decide +kernel

theorem test_StrippedMessages :
    line.phase = .running ∧ goodMessage ⟨17, 62, 0x11, 0, []⟩ = true ∧ (62 : Node) = line.ring.ownNode
      ∧ goodMessage ⟨0, 62, 0x29, 0, [1]⟩ = true := by decide +kernel

theorem test_TransmitterChoosesNext :
    let s := { line with ring := { line.ring with tx := .own ⟨0, 62, 0x29, 0, [1]⟩ } }
    s.phase = .running ∧ s.ring.tx ≠ .idle ∧ s.ring.forward = [] ∧ s.ring.outbound = []
      ∧ ({ s.ring with forward := [⟨5, 3, 9, 0, []⟩] } : RingPort).forward = ⟨5, 3, 9, 0, []⟩ :: []
      ∧ ({ s.ring with outbound := [⟨0, 62, 0x29, 0, [1]⟩] } : RingPort).outbound = ⟨0, 62, 0x29, 0, [1]⟩ :: [] := by
  decide +kernel

theorem test_FullOutboundQueueDrops :
    (Ev.start line).s.ring.outbound.length < 32
      ∧ 32 ≤ (List.replicate 32 (⟨0, 62, 0x29, 0, [1]⟩ : Message)).length := by decide +kernel

/-- `running` with 32 messages waiting and the transmitter busy. -/
def full : State :=
  { running with ring := { running.ring with
    outbound := List.replicate 32 ⟨0, 62, 0x29, 0, [1]⟩, tx := .own ⟨0, 62, 0x29, 0, [1]⟩ } }

theorem test_FullOutboundQueueDrops_requests :
    32 ≤ full.ring.outbound.length ∧ full.obeys master ∧ full.arrived.rc.state = .run := by
  unfold State.obeys
  decide +kernel

theorem test_FullOutboundQueueDrops_cycle :
    let m := (station 19).message 2 (9 :: bytes2 1 ++ [0])
    full.takes m ∧ (full.heard m).rc.state ≠ .config ∧ (full.heard m).plays 19 9 ∧ (full.heard m).queues.aq = []
      ∧ (full.heard m).queues.jq = [] ∧ follows (full.heard m).cycles.lastJacket 1 = true := by
  unfold State.takes State.hears State.plays
  decide +kernel

theorem test_FullOutboundQueueDrops_sight :
    full.takes ((station 11).message 1 []) ∧ (full.heard ((station 11).message 1 [])).rc.state ≠ .config := by
  unfold State.takes State.hears
  decide +kernel

/-- A dropped order in RUN: OUTBOUND_FULL and HALTED, then one OUTBOUND_FULL for each FEED PAUSE and the ALERT (R154). -/
theorem test_full_queue_halts :
    let t := after (.jacketCycle (station 19) [9, 0, 1, 0]) full
    t.mu.log.map (fun a => (a.code, a.detail))
      = [(.outboundFull, 0x1313), (.halted, 8), (.outboundFull, 0x100E), (.outboundFull, 0x100F), (.outboundFull, 0x1010),
        (.outboundFull, 0x2900)] := by decide +kernel

/-- The part takes requests of node 0. -/
theorem test_obeys :
    line.obeys master ∧ ready.obeys master ∧ running.obeys master ∧ halted.obeys master ∧ draining.obeys master := by
  unfold State.obeys
  decide +kernel

theorem test_StartRun_refusals :
    (running.arrived.rc.state ≠ .config) ∧ line.arrived.ring.proofRun = none ∧ line.arrived.ccu.valid = false
      ∧ ready.arrived.ccu.valid = true ∧ ready.arrived.ring.proofResult ≠ .fail ∧ ready.arrived.ring.link = .up
      ∧ ¬ (∀ r, ({ ready with lineMap := ready.lineMap.set 8 0 } : State).lineMap.get r ≠ 0)
      ∧ ({ ready.ring with link := .down } : RingPort).link ≠ .up := by decide +kernel

theorem test_StartRun_complete :
    (∀ r, ready.arrived.lineMap.get r ≠ 0) ∧ ∃ i, (ready.arrived.titles.activeBank.get i).key ≠ 0 :=
  ⟨by decide +kernel, 0, by decide +kernel⟩

theorem test_StartRun_emptyTable : ¬ ∃ i, (line.arrived.titles.activeBank.get i).key ≠ 0 := by
  rintro ⟨i, hi⟩
  exact hi (congrArg TitleRecord.key (Table.get_fill 512 TitleRecord.empty i))

theorem test_HaltAndResume :
    running.arrived.rc.state = .run ∧ draining.arrived.rc.state = .drain ∧ line.arrived.rc.state = .config
      ∧ halted.arrived.rc.state = .halt ∧ halted.arrived.rc.causes.link = false ∧ halted.arrived.ring.outbound.length ≤ 16
      ∧ (CauseSet.empty.add .link).link = true ∧ 16 < (List.replicate 17 (⟨0, 62, 0x29, 0, [1]⟩ : Message)).length := by
  decide +kernel

theorem test_DrainAccepted :
    halted.arrived.rc.state = .halt ∧ halted.arrived.rc.causes.link = false ∧ halted.arrived.ring.outbound.length ≤ 16
      ∧ halted.arrived.queues.bq = [] ∧ halted.arrived.queues.tq = [] ∧ halted.arrived.queues.aq = []
      ∧ halted.arrived.queues.pt = ⟨none, none, none, none, none, none⟩ ∧ halted.arrived.feed = ⟨.pause, .pause, .pause⟩
      ∧ running.arrived.rc.state = .run ∧ draining.arrived.queues.aq ≠ []
      ∧ running.arrived.ring.outbound.length < 32 := by decide +kernel

theorem test_WorkDiscarded :
    halted.arrived.rc.state = .halt ∧ halted.arrived.feed = ⟨.pause, .pause, .pause⟩ ∧ running.arrived.rc.state ≠ .halt
      ∧ (1 : Byte).toNat = Collection.bq.code ∧ (6 : Byte).toNat = Collection.aq.code ∧ (0 : Byte).toNat = 0
      ∧ 6 < (7 : Byte).toNat := by decide +kernel

theorem test_ChangeoverRequests_bank :
    (∀ i, ready.arrived.titles.standbyBank.get i = if i.val < firstProtected ready.arrived.titles.protect then
      ready.arrived.titles.activeBank.get i else ready.arrived.titles.standbyBank.get i)
    ∧ Bank.unique ready.arrived.titles.standbyBank ∧ ∀ i, (ready.arrived.titles.standbyBank.get i).key = 0 :=
  ⟨fun _ => rfl, unique_blank, fun i => congrArg TitleRecord.key (Table.get_fill 512 TitleRecord.empty i)⟩

theorem test_ChangeoverRequests_duplicate :
    let b : Bank := ((Table.fill 512 TitleRecord.empty).set 0 ⟨100, TitleData.zero, 0⟩).set 511 ⟨100, TitleData.zero, 0⟩
    ¬ Bank.unique b ∧ ∃ i, (b.get i).key ≠ 0 :=
  ⟨fun h => absurd (h 0 511 (by decide +kernel) (by decide +kernel)) (by decide), 0, by decide +kernel⟩

theorem test_StoreTakesSnapshot :
    running.arrived.store.op = .idle ∧ running.arrived.rc.state = .run ∧ halted.arrived.rc.state = .halt
      ∧ ({ line.store with op := .inFlight Settings.default } : Store).op = .inFlight Settings.default
      ∧ line.phase = .running := by decide +kernel

theorem test_ProofRunBegins :
    line.arrived.ring.proofRun = none ∧ line.arrived.rc.state = .config ∧ line.arrived.ring.link = .up
      ∧ running.arrived.rc.state ≠ .config ∧ (some ⟨Table.fill 16 false, false⟩ : Option ProofRun) ≠ none := by decide +kernel

theorem test_ProofRunEnds :
    let p : List Byte := 15 :: (List.range 32).map fun j => BitVec.ofNat 8 (15 * 17 + j)
    goodMessage ((⟨62, 62, 15⟩ : Envelope).message 0x30 p) = true ∧ (62 : Node) = line.ring.ownNode
      ∧ (p.length = 33 ∧ natAt1 p 0 ≤ 15 ∧ byteAt p 0 = 15
        ∧ ∀ j, j < 32 → byteAt p (j + 1) = BitVec.ofNat 8 (natAt1 p 0 * 17 + j))
      ∧ line.arrived.ring.proofRun = none ∧ (⟨Table.fill 16 false, true⟩ : ProofRun).timer = true := by decide +kernel

theorem test_MalformedRequestsAnswered :
    carried (.unknownKind (master.message 0x20 [])) = some (master.message 0x20 [])
      ∧ carried (.start master []) = some (master.message 0x20 [1]) ∧ ([1] : List Byte).length ≠ 2
      ∧ ([1, 0, 0] : List Byte).length ≠ 2 ∧ ∀ r : Request, r.code ≠ byteAt [0x20, 0] 0 := by
  refine ⟨rfl, rfl, by decide, by decide, fun r => ?_⟩
  cases r <;> decide

/-! ### Witnesses: management requests -/

/-- The default limits as a WRITE carries them. -/
def limitsRest : List Byte := [0, 0, 1, 4, 12, 3, 8, 3, 8, 2, 2, 3, 2, 3, 2, 8]

/-- The manual's calibration record as a WRITE carries it. -/
def calibrationRest : List Byte :=
  [0, 0, 1] ++ int2 200 ++ nat2 8000 ++ nat2 4200 ++ nat2 4608 ++ nat2 2000 ++ int2 (-1200) ++ int2 300

theorem test_LimitsAndCalibrationWritten :
    (after (.limitsWrite master (limitsRest.set 3 11)) ready).limits.bqLow = 11
      ∧ (after (.limitsWrite master (limitsRest.set 3 12)) ready).limits.bqLow = 4
      ∧ (after (.calibrationWrite master calibrationRest) line).ccu = ready.ccu
      ∧ (after (.calibrationWrite master calibrationRest) running).ccu = running.ccu := by decide +kernel

theorem test_LimitsAndCalibrationWritten_forms :
    limitsRest.length = 16 ∧ natAt1 limitsRest 2 = 1 ∧ (limitsRest.drop 3).length = 13 ∧ natAt2 limitsRest 0 = 0
      ∧ calibrationRest.length = 17 ∧ (calibrationRest.drop 3).length = 14 ∧ ready.arrived.rc.state = .config
      ∧ running.arrived.rc.state ≠ .config := by decide +kernel

theorem test_LineMapWritten :
    let rest : List Byte := [0, 9, 1, 62 - 1]
    (1 ≤ natAt1 rest 2 ∧ natAt1 rest 2 ≤ 9 ∧ (rest.drop 3).length = natAt1 rest 2)
      ∧ (1 ≤ natAt2 rest 0 ∧ natAt2 rest 0 ≤ 9 ∧ natAt2 rest 0 + natAt1 rest 2 ≤ 10
        ∧ ∀ x ∈ rest.drop 3, 1 ≤ x.toNat ∧ x.toNat ≤ 62 ∧ x ≠ ready.arrived.ring.ownNode
          ∧ some x ≠ ready.arrived.ring.formerNode)
      ∧ (∀ i : Fin 9, (ready.arrived.lineMap.set 8 61).get i = if 9 ≤ i.val + 1 ∧ i.val + 1 < 9 + 1 then
        byteAt (rest.drop 3) (i.val + 1 - 9) else ready.arrived.lineMap.get i) := by decide +kernel

theorem test_NodeAndProtectWritten :
    let rest : List Byte := [0, 0, 1, 1]
    natAt1 rest 2 = 1 ∧ (rest.drop 3).length = 1 ∧ natAt2 rest 0 = 0 ∧ (byteAt (rest.drop 3) 0).toNat = 1
      ∧ (∀ i, ready.arrived.lineMap.get i ≠ byteAt (rest.drop 3) 0) ∧ ready.arrived.rc.state = .config
      ∧ ready.arrived.ring.proofRun = none := by decide +kernel

/-- Record 511 of a TITLE write: key 101, every field at the low end of its range. -/
def titleRest : List Byte :=
  [1, 255, 1, 0, 0, 101, 0, 1, 0, 0] ++ nat2 100 ++ nat2 0 ++ nat2 0 ++ nat2 0 ++ nat2 500 ++ nat2 500 ++ [0, 0, 0, 0]

/-- `ready` with nothing protected. -/
def unprotected : State := { ready with titles := { ready.titles with protect := 0 } }

theorem test_TitlesWritten_checks :
    titleRest.length = 26 ∧ natAt1 titleRest 2 = 1 ∧ (titleRest.drop 3).length = 23 * 1 ∧ natAt2 titleRest 0 = 511
      ∧ titleInRange (recordAt 23 (titleRest.drop 3) 0)
      ∧ (511 + 0) % 512 < firstProtected unprotected.arrived.titles.protect
      ∧ ¬ 511 < firstProtected ready.arrived.titles.protect := by
  unfold titleInRange
  decide +kernel

theorem test_TitlesWritten_bank :
    let v := titleRest.drop 3
    let b : Bank := (Table.fill 512 TitleRecord.empty).set 511 (titleOf (recordAt 23 v 0))
    (∀ j, b.get j = if behind 512 511 j.val < 1 then titleOf (recordAt 23 v (behind 512 511 j.val))
      else unprotected.arrived.titles.standbyBank.get j) ∧ Bank.unique b := by
  refine ⟨fun j => ?_, unique_one _ _⟩
  have hb : unprotected.arrived.titles.standbyBank = Table.fill 512 TitleRecord.empty := rfl
  rw [Table.get_set, hb, Table.get_fill]
  by_cases h : (511 : Fin 512) = j
  · have h0 : behind 512 511 j.val = 0 := by subst h; decide +kernel
    rw [if_pos h, h0, if_pos Nat.zero_lt_one]
  · have : j.val ≠ 511 := fun hj => h (Fin.ext hj.symm)
    have hlt := j.isLt
    rw [if_neg h, if_neg]
    unfold behind
    omega

theorem test_RecipesAndProfilesWritten_checks :
    let dose : List Byte := [0, 31, 1, 1, 244, 1, 244, 0, 1, 200]
    let profile : List Byte := [0, 63, 1, 0, 0, 0, 0, 0, 0, 0, 0, 0, 0, 255, 1]
    (after (.doseWrite master dose) ready).dose.recipes.get 31 = ⟨500, 500, 1, 200⟩
      ∧ ((after (.profileWrite master profile) ready).profiles.get 63).e6 = ⟨255, true⟩ := by decide +kernel

theorem test_RecipesAndProfilesWritten_tables :
    let v : List Byte := [1, 244, 1, 244, 0, 1, 200]
    let recipe := fun (d : Nat) =>
      let p := recordAt 7 v d
      (⟨natAt2 p 0, natAt2 p 2, natAt2 p 4, natAt1 p 6⟩ : Recipe)
    let u : DoseUnit := ⟨ready.dose.recipes.set 31 ⟨500, 500, 1, 200⟩, (ready.dose.carries.set 62 0).set 63 0⟩
    (∀ j, u.recipes.get j = if behind 32 31 j.val < 1 then recipe (behind 32 31 j.val) else ready.dose.recipes.get j)
      ∧ ∀ j, u.carries.get j = if behind 32 31 (j.val / 2) < 1 then 0 else ready.dose.carries.get j := by decide +kernel

theorem test_RecipesAndProfilesWritten_profiles :
    let v : List Byte := [0, 0, 0, 0, 0, 0, 0, 0, 0, 0, 255, 1]
    ∀ j, (ready.profiles.set 63 ⟨⟨0, false⟩, ⟨0, false⟩, ⟨0, false⟩, ⟨0, false⟩, ⟨0, false⟩, ⟨255, true⟩⟩).get j
      = if behind 64 63 j.val < 1 then profileOfBytes (recordAt 12 v (behind 64 63 j.val)) else ready.profiles.get j := by
  decide +kernel

theorem test_ComparatorsWritten :
    let rest : List Byte := [0, 3, 1, 1, 1, 4] ++ int2 (-400) ++ int2 3000
    let v := rest.drop 3
    let q := ready.arrived.iron.comparators.set 3 ⟨⟨.below, true, 4, -400, 3000⟩, false, 0⟩
    natAt2 rest 0 = 3 ∧ natAt1 rest 2 = 1 ∧ v.length = 7 * 1 ∧ comparatorInRange (recordAt 7 v 0)
      ∧ (∀ j, q.get j = if behind 4 3 j.val < 1 then ⟨comparatorOf (recordAt 7 v (behind 4 3 j.val)), false, 0⟩
        else ready.arrived.iron.comparators.get j) := by
  unfold comparatorInRange
  decide +kernel

theorem test_UnknownRegionsAnswered :
    ([] : List Byte).length < 4 ∧ 4 ≤ ([0x0A, 0, 0, 1] : List Byte).length ∧ (∀ r : Region, r.code ≠ byteAt [0x0A, 0, 0, 1] 0)
      ∧ 0x10 ≤ natAt1 [0x10, 0, 0, 1] 0 ∧ natAt1 [0x14, 0, 0, 1] 0 ≤ 0x14 := by
  refine ⟨by decide, by decide, fun r => ?_, by decide, by decide⟩
  cases r <;> decide

theorem test_ReadsChangeNothing :
    byteAt [0x12, 0, 0, 1] 0 = Region.ident.code ∧ Region.ident ≠ .alerts
      ∧ ([0x12, 0, 0, 1] : List Byte).length = 4 ∧ (1 ≤ natAt1 [0x12, 0, 0, 1] 3 ∧ natAt1 [0x12, 0, 0, 1] 3 ≤ Region.ident.mostRead 0)
      ∧ ([0x12, 0, 0, 1, 0] : List Byte).length ≠ 4 ∧ Region.queue.mostRead 0x0118 < 2 ∧ 5 ≤ Region.queue.mostRead 0x0301
      ∧ Region.queue.mostRead 0x0700 = 5 := by decide

/-- Indices at both ends of the ranges of READs. -/
theorem test_ReadsChangeNothing_ranges :
    Region.title.readable 1023 2 ∧ ¬ Region.title.readable 1024 1 ∧ Region.dose.readable 31 4 ∧ Region.profile.readable 63 4
      ∧ Region.comparator.readable 3 4 ∧ ¬ Region.calibration.readable 1 1 ∧ Region.linemap.readable 9 1
      ∧ ¬ Region.linemap.readable 9 2 ∧ Region.totals.readable 9 12 ∧ ¬ Region.totals.readable 10 12
      ∧ Region.queue.readable 0x0118 1 ∧ ¬ Region.queue.readable 0x0119 1 ∧ ¬ Region.queue.readable 0x0500 3
      ∧ Region.queue.readable 0x0506 3 ∧ ¬ Region.queue.readable 0x0700 5 := by
  simp [Region.readable]

/-- The records of PT from position 6: the empty position's zeros with profile 255 (R93). -/
theorem test_read_emptyPosition :
    (after (.alertsRead master [0x13, 5, 6, 2]) ready).ring.tx
      = .own ⟨0, 62, 0x28, 7, [0, 0x13, 5, 6, 1, 0, 0, 0, 0, 0, 0, 0, 0, 0, 0, 0, 255, 0, 0, 0, 0]⟩ := by decide +kernel

/-- A title READ that wraps from slot 511 to slot 0 of bank A (R7). -/
theorem test_read_wraps :
    let tx := (after (.alertsRead master [1, 1, 255, 2]) ready).ring.tx
    (match tx with
      | .own m => m.payload.take 5 ++ (m.payload.drop 5).take 3 ++ (m.payload.drop 28).take 5
      | _ => []) = [0, 1, 1, 255, 2, 0, 0, 0, 0, 0, 100, 0, 5] := by decide +kernel

theorem test_AlertsReadRemoves :
    ([0x14, 0, 0, 3] : List Byte).length = 4 ∧ byteAt [0x14, 0, 0, 3] 0 = 0x14 ∧ natAt1 [0x14, 0, 0, 3] 3 = 3
      ∧ natAt2 [0x14, 0, 0, 3] 1 = 0 ∧ line.arrived.mu.log.length ≤ 3
      ∧ ({ line with ring := { line.ring with link := .acquiring } } : State).arrived.mu.log.length = 1
      ∧ 1 < (List.replicate 2 (⟨.drained, 0, 0, 0, 0, 0⟩ : Alert)).length := by decide +kernel

/-! ### Witnesses: titles, dose, irons -/

/-- `running` with `n` records in its log. -/
def logged (n : Nat) : State :=
  { running with mu := ⟨List.replicate n ⟨.starved, 16, 6101, 100, 5, 1⟩, false, if n = 0 then .low else .high⟩ }

/-- A malformed SIGHT with 0, 31 and 32 records in the log: one more, one more, and the overrun flag (R165). -/
theorem test_AlertsJoinTheLog :
    (∀ n ∈ [0, 31, 32],
      (logged n).takes ((station 11).message 1 []) ∧ (logged n).rc.state ≠ .config
        ∧ (logged n).ring.link ≠ .acquiring ∧ (logged n).ring.outbound.length < 32)
      ∧ (after (.blockSight (station 11) []) (logged 0)).mu = ⟨[⟨.badSighting, 0, 0, 0, 0, 1⟩], false, .high⟩
      ∧ (after (.blockSight (station 11) []) (logged 31)).mu
        = ⟨(logged 31).mu.log ++ [⟨.badSighting, 0, 0, 0, 0, 1⟩], false, .high⟩
      ∧ (after (.blockSight (station 11) []) (logged 32)).mu = ⟨(logged 32).mu.log, true, .high⟩ := by
  unfold State.takes State.hears
  decide +kernel

theorem test_KeyLookupFindsSlot :
    Bank.unique ready.titles.activeBank ∧ (100 : TitleKey) ≠ 0 ∧ (ready.titles.activeBank.get 0).key = 100
      ∧ (∀ i, (line.titles.activeBank.get i).key ≠ 100) :=
  ⟨unique_one _ _, by decide, by decide +kernel, fun i h => by
    rw [show (line.titles.activeBank.get i).key = 0 from
      congrArg TitleRecord.key (Table.get_fill 512 TitleRecord.empty i)] at h
    exact absurd h (by decide)⟩

/-- The halves of the manual's table of roundings: 32768 gives 1 and -32768 gives -1. -/
theorem test_CaliperCorrection_halves :
    (|(32768 : Int) - 65536 * 1| ≤ 32768 ∧ (|(32768 : Int) - 65536 * 1| = 32768 → |(32768 : Int)| < |(65536 : Int) * 1|))
      ∧ (|(-32768 : Int) - 65536 * (-1)| ≤ 32768
        ∧ (|(-32768 : Int) - 65536 * (-1)| = 32768 → |(-32768 : Int)| < |(65536 : Int) * (-1)|)) := by norm_num

theorem test_DoseShots :
    let d : TitleData := ⟨5, 0, 2850, 40, 150, 300, 2400, 1700, 5, 12, true, false⟩
    d.pasteLeft = true ∧ d.pasteRight = false ∧ (3907800 * 40 / 100 + 0) / 7000 ≤ 4095
      ∧ 4095 < (15750000 * 500 / 100 + 0) / 19000 ∧ 1 ≤ (ready.dose.recipes.get d.recipe).shot
      ∧ ready.dose.carries.get 10 < (ready.dose.recipes.get d.recipe).shot := by decide +kernel

theorem test_MarkSwapsBanks :
    ready.takes (master.message 4 [0, 7]) ∧ (ready.heard (master.message 4 [0, 7])).titles.armed = false
      ∧ ready.takes ((station 11).message 4 [0, 7]) ∧ (station 11).src ≠ 0
      ∧ ({ ready with titles := { ready.titles with armed := true } } : State).titles.armed = true := by
  unfold State.takes State.hears
  decide +kernel

theorem test_MarkSwapsBanks_counts :
    ∀ i, (Table.fill 512 0).get i = (ready.titles.standbyBank.get i).proofCount := fun i => by
  rw [show ready.titles.standbyBank = Table.fill 512 TitleRecord.empty from rfl, Table.get_fill, Table.get_fill]
  rfl

/-- One reading beyond FWD_HI's on threshold, which FWD_LO does not confirm. -/
theorem moves_tally :
    (⟨⟨.above, true, 2, 2000, 1900⟩, false, 0⟩ : Comparator).moves ⟨⟨.above, true, 2, 2000, 1900⟩, false, 1⟩ 2001
      ∧ (⟨⟨.below, true, 2, 1400, 1500⟩, false, 0⟩ : Comparator).moves ⟨⟨.below, true, 2, 1400, 1500⟩, false, 0⟩ 2001 := by
  simp [Comparator.moves, Comparator.meets]

theorem test_ReadingsMoveComparators :
    let p : List Byte := 0 :: int2 2001
    let x := ready.heard ((station 18).message 3 p)
    let t := x.iron.comparators.set 0 ⟨⟨.above, true, 2, 2000, 1900⟩, false, 1⟩
    ready.takes ((station 18).message 3 p) ∧ p.length = 3 ∧ x.plays 18 8
      ∧ (x.iron.comparators.get 0).moves (t.get 0) 2001 ∧ (x.iron.comparators.get 1).moves (t.get 1) 2001
      ∧ (∀ i, i ≠ 0 → i ≠ 1 → t.get i = x.iron.comparators.get i) ∧ ¬ x.plays 17 8
      ∧ x.rc.state = .config ∧ (running.heard ((station 17).message 3 p)).rc.state ≠ .config := by
  refine ⟨?_, ?_, ?_, moves_tally.1, moves_tally.2, ?_, ?_, ?_, ?_⟩
  all_goals
    first
      | decide +kernel
      | unfold State.takes State.hears
        decide +kernel
      | unfold State.plays
        decide +kernel

/-! ### Witnesses: sightings and cycles -/

theorem test_BlockSightingEnqueued :
    let x := running.heard ((station 11).message 1 blockPayload)
    running.takes ((station 11).message 1 blockPayload) ∧ x.rc.state ≠ .config ∧ blockPayload.length = 12
      ∧ byteAt blockPayload 0 = 1 ∧ serialAt blockPayload 1 ≠ 0 ∧ x.plays 11 1
      ∧ (∀ b ∈ x.queues.bq, b.serial ≠ serialAt blockPayload 1)
      ∧ (∀ r ∈ x.queues.tq ++ x.queues.pt.records ++ x.queues.aq, r.serial ≠ serialAt blockPayload 1)
      ∧ x.queues.bq.length < 24 ∧ x.titles.lookup (keyAt blockPayload 5) = blockEntry.title
      ∧ x.titles.lookup 101 = none := by
  unfold State.takes State.hears State.plays
  decide +kernel

theorem test_CaseAndJacketSightingsEnqueued :
    let x := running.heard ((station 12).message 1 casePayload)
    let y := running.heard ((station 13).message 1 jacketPayload)
    (running.takes ((station 12).message 1 casePayload) ∧ x.rc.state ≠ .config ∧ casePayload.length = 9
      ∧ byteAt casePayload 0 = 2 ∧ serialAt casePayload 1 ≠ 0 ∧ wordAt casePayload 5 ≠ 0 ∧ natAt2 casePayload 7 ≤ 15000
      ∧ x.plays 12 2 ∧ (∀ c ∈ x.queues.cq, c.serial ≠ serialAt casePayload 1) ∧ x.queues.cq.length < 16)
    ∧ (running.takes ((station 13).message 1 jacketPayload) ∧ jacketPayload.length = 7 ∧ byteAt jacketPayload 0 = 3
      ∧ serialAt jacketPayload 1 ≠ 0 ∧ wordAt jacketPayload 5 ≠ 0 ∧ y.plays 13 3
      ∧ (∀ j ∈ y.queues.jq, j.serial ≠ serialAt jacketPayload 1) ∧ y.queues.jq.length < 16) := by
  unfold State.takes State.hears State.plays
  decide +kernel

/-- A payload for each number that the check of a SIGHT's form gives, and one whose form is right. -/
theorem test_SightingsTurnedAway_forms :
    [[], [0], [4], blockPayload.take 11, [3, 0, 0, 0, 0, 0, 1], [3, 0, 0, 0, 1, 0, 0], [2, 0, 0, 0, 1, 0, 5, 58, 153],
      [2, 0, 0, 0, 1, 0, 5, 58, 152]].map badSighting
      = [some 1, some 1, some 1, some 2, some 3, some 4, some 5, none] := by decide +kernel

/-- `running` with the manual's block at the tail of BQ, a second one behind the head, and a book in each later place. -/
def loaded : State :=
  { running with queues :=
    ⟨[{ blockEntry with serial := 6100 }, blockEntry], [], [], [book 6102 0], ⟨some (book 6103 0), none, none, none, none, none⟩,
      [book 6104 0]⟩ }

theorem test_SightingsTurnedAway :
    let sight := fun (serial : Nat) => (station 11).message 1 ([1] ++ nat4 serial ++ [0, 0, 100] ++ nat2 3000 ++ nat2 2300)
    let x := loaded.heard (sight 6101)
    loaded.takes (sight 6101) ∧ x.rc.state ≠ .config ∧ badSighting (sight 6101).payload = none ∧ x.plays 11 1
      ∧ (∃ b, x.queues.bq.getLast? = some b ∧ b.serial = 6101) ∧ (∃ b ∈ x.queues.bq, b.serial = 6100)
      ∧ (∃ r ∈ x.queues.tq, r.serial = 6102) ∧ (∃ r ∈ x.queues.pt.records, r.serial = 6103)
      ∧ (∃ r ∈ x.queues.aq, r.serial = 6104) ∧ badSighting [] = some 1 ∧ ¬ x.plays 12 1
      ∧ 24 ≤ (List.replicate 24 blockEntry).length ∧ 16 ≤ (List.replicate 16 (JacketEntry.mk 1 41 Waiting.fresh)).length := by
  refine ⟨?_, ?_, ?_, ?_, ⟨blockEntry, rfl, rfl⟩, ⟨_, List.mem_cons_self, rfl⟩, ⟨_, List.mem_cons_self, rfl⟩,
    ⟨_, List.mem_cons_self, rfl⟩, ⟨_, List.mem_cons_self, rfl⟩, ?_, ?_, ?_, ?_⟩
  all_goals
    first
      | decide +kernel
      | unfold State.takes State.hears
        decide +kernel
      | unfold State.plays
        decide +kernel

theorem test_PresenceAndStarving : (0 : Nat) + 1 < 3 ∧ 3 ≤ 2 + 1 ∧ starvedNow ⟨0, 2, false⟩ 3 = true := by decide

theorem test_CasingAndJacketDecisions_casing :
    let d : TitleData := ⟨5, 0, 2850, 40, 150, 300, 2400, 1700, 5, 12, true, false⟩
    blockEntry.title = some ⟨0, d⟩ ∧ blockEntry.offCaliper = false ∧ fits d 3100 2866 = true ∧ fits d 3000 2866 = false
      ∧ blockEntry.fitFail + 1 < 2 ∧ 1 ≤ blockEntry.fitFail + 1 ∧ (6 : ItemKey) ≠ d.caseKey := by decide +kernel

theorem test_CasingAndJacketDecisions_jacket : (book 1 0).jacketKey = 0 ∧ (book 1 41).jacketKey ≠ 0 ∧ (42 : ItemKey) ≠ (book 1 41).jacketKey := by
  decide +kernel

theorem test_CyclesTurnedAway :
    running.takes ((station 17).message 2 [7, 0, 1, 3]) ∧ ready.takes ((station 17).message 2 [7, 0, 1, 3])
      ∧ (ready.heard ((station 17).message 2 [7, 0, 1, 3])).rc.state = .config
      ∧ ¬ (([7, 0, 1] : List Byte).length = 4) := by
  unfold State.takes State.hears
  decide +kernel

theorem test_CasingCycleTaken :
    let m := (station 17).message 2 [7, 0, 1, 3]
    running.takes m ∧ (running.heard m).rc.state ≠ .config ∧ byteAt m.payload 0 = 7 ∧ (running.heard m).plays 17 7 := by
  unfold State.takes State.hears State.plays
  decide +kernel

theorem test_PressIndexTaken :
    let m := (station 18).message 2 [8, 0, 1, 1]
    running.takes m ∧ (running.heard m).rc.state ≠ .config ∧ byteAt m.payload 0 = 8 ∧ (running.heard m).plays 18 8 := by
  unfold State.takes State.hears State.plays
  decide +kernel

theorem test_JacketCycleTaken :
    let m := (station 19).message 2 [9, 0, 1, 1]
    draining.takes m ∧ (draining.heard m).rc.state ≠ .config ∧ byteAt m.payload 0 = 9 ∧ (draining.heard m).plays 19 9 := by
  unfold State.takes State.hears State.plays
  decide +kernel

/-- `ready` in DRAIN with one block left, absent twice. -/
def lastBlock : State :=
  { draining with queues := { Queues.empty with bq := [{ blockEntry with wait := ⟨2, 0, false⟩ }] } }

/-- `ready` in DRAIN with one book left, in TQ, absent once. -/
def lastBook : State :=
  { draining with queues := { Queues.empty with tq := [{ book 6101 0 with wait := ⟨1, 0, false⟩ }] } }

/-- The drain-completing clause of a casing CYCLE: the last block is lost from BQ. -/
theorem test_CasingCycleTaken_drains :
    let m := (station 17).message 2 [7, 0, 1, 0]
    let x := lastBlock.heard m
    let rb := reconcile BlockEntry.wait BlockEntry.setWait false x.limits.casingWait x.queues.bq
    let o := casingServed (casingCase x.limits [] rb.1.head none) (x.holding rb.2 [] [] [] [])
    (lastBlock.takes m ∧ x.plays 17 7)
      ∧ (o.after.queues.bq.length < x.queues.bq.length ∧ o.after.rc.state = .drain ∧ o.after.queues = Queues.empty
        ∧ rb.1.isPhantom = false ∧ o.after.ring.outbound.length + 1 + (1 + o.ys.length) ≤ 32)
      ∧ (after (.casingCycle (station 17) m.payload) lastBlock).rc.state = .config := by
  unfold State.takes State.hears State.plays
  decide +kernel

/-- The drain-completing clause of a press CYCLE: the last book is lost from TQ. -/
theorem test_PressIndexTaken_drains :
    let m := (station 18).message 2 [8, 0, 1, 0]
    let x := lastBook.heard m
    let ri := reconcile BookRecord.wait BookRecord.setWait false x.limits.pressWait x.queues.tq
    (lastBook.takes m ∧ x.plays 18 8)
      ∧ (ri.2.length < x.queues.tq.length ∧ x.rc.state = .drain ∧ ri.2 = [] ∧ ri.1.head = none ∧ ri.1.isPhantom = false
        ∧ x.queues.pt = PressTrain.empty ∧ x.queues.bq = [] ∧ x.queues.aq = [] ∧ x.ring.outbound.length + 1 + 1 ≤ 32)
      ∧ (after (.pressIndex (station 18) m.payload) lastBook).rc.state = .config := by
  unfold State.takes State.hears State.plays
  decide +kernel

/-- The drain-completing clause of a jacket CYCLE: the last book is passed. -/
theorem test_JacketCycleTaken_drains :
    let m := (station 19).message 2 [9, 0, 1, 1]
    let x := draining.heard m
    let rk := reconcile BookRecord.wait BookRecord.setWait true x.limits.jacketWait x.queues.aq
    let o := jacketServed (jacketCase x.limits [] rk.1.head none) x
    (draining.takes m ∧ x.plays 19 9)
      ∧ (o.after.queues.aq.length < x.queues.aq.length ∧ o.after.rc.state = .drain ∧ o.after.queues = Queues.empty
        ∧ o.after.ring.outbound.length + 1 + o.ys.length ≤ 32)
      ∧ (after (.jacketCycle (station 19) m.payload) draining).rc.state = .config := by
  unfold State.takes State.hears State.plays
  decide +kernel

/-- The clause of each CYCLE at a full outbound queue. -/
theorem test_CyclesTaken_full :
    (∀ r : Fin 3,
      let m := (station (BitVec.ofNat 8 (17 + r.val))).message 2 [BitVec.ofNat 8 (7 + r.val), 0, 1, 1]
      full.takes m ∧ (full.heard m).rc.state ≠ .config ∧ (full.heard m).plays m.src (7 + r.val)
        ∧ 32 ≤ (full.heard m).ring.outbound.length)
      ∧ (after (.casingCycle (station 17) [7, 0, 1, 1]) full).rc.state = .halt
      ∧ (after (.pressIndex (station 18) [8, 0, 1, 1]) full).rc.state = .halt := by
  unfold State.takes State.hears State.plays
  decide +kernel

/-- Tallies of the type CASE at either end of a total's range. -/
theorem test_TalliesRaiseTheirTotals :
    let y : Tally := ⟨.caseItem, 8201, 0, .reject, .casing, [.fit], 0⟩
    let z : Totals := ⟨ItemTotals.zero, ⟨0, 0, 0, 4294967295, 0, 0, 0⟩, ItemTotals.zero⟩
    z.tallied y = z ∧ (Totals.zero.tallied y).cases = ⟨0, 0, 0, 1, 0, 0, 0⟩
      ∧ (Totals.zero.tallied { y with serial := 0 }).cases = ⟨0, 0, 0, 0, 0, 0, 1⟩ := by decide

/-- Occupancies at the marks 3 and 8 of CQ, before and after the event the same and not. -/
theorem test_FeedLevelsComputed :
    let s := fun n => { running with queues := { Queues.empty with cq := List.replicate n ⟨8201, 5, 3100, Waiting.fresh⟩ } }
    ([2, 3, 7, 8].map fun n => computedLevel (s n) .caseFeeder) = [.high, .normal, .normal, .pause]
      ∧ (s 3).queues.cq.length ≠ (s 2).queues.cq.length ∧ (s 3).queues.bq.length = (s 2).queues.bq.length := by
  decide +kernel

/-! ### Witnesses: whole-machine rules -/

/-- A state of a run that meets the invariant of the line, with a command waiting, and what its step answers. -/
theorem test_LineInvariantKept :
    let s := { running with pending := [.blockSight (station 11) blockPayload] }
    s.lineSound ∧ ∃ t, step s = .next t := by
  refine ⟨⟨?_, ?_, ?_, ?_, ?_⟩, _, rfl⟩
  · unfold State.runSound Queues.isEmpty
    decide +kernel
  · unfold State.logSound
    decide +kernel
  · unfold State.capacitySound
    decide +kernel
  · unfold State.ringSound
    decide +kernel
  · unfold State.startUpSound
    decide +kernel

theorem test_DataInvariantKept : running.dataSound := by
  refine ⟨⟨?_, unique_one _ _, unique_blank, fun i => ?_⟩, ?_, ?_, ?_, ?_⟩
  · unfold TitleRecord.sound
    decide +kernel
  · rw [show running.titles.proofLeft.get i = 0 from Table.get_fill 512 0 i]
    exact Nat.zero_le _
  · unfold State.settingsSound
    decide +kernel
  · unfold DoseUnit.sound
    decide +kernel
  · unfold State.countsSound
    decide +kernel
  · unfold Queues.serialsSound
    decide +kernel

theorem test_AccountingKept :
    let c : Instr := .blockSight (station 11) blockPayload
    (∃ t, exec c running = .next t ∧ t.unsaturated) ∧ running.balanced
      ∧ (∀ m, carried c = some m → m.kind = 0x20 → byteAt m.payload 0 ≠ 7) := by
  refine ⟨⟨_, rfl, ?_⟩, ?_, fun m h k => ?_⟩
  · unfold State.unsaturated
    decide +kernel
  · unfold State.balanced
    decide +kernel
  · cases Option.some.inj h
    exact absurd k (by decide)

theorem test_SettingsHeldStill :
    (after (.limitsWrite master (limitsRest.set 3 11)) ready).limits ≠ ready.limits
      ∧ (after (.protectWrite master .high [0, 0, 1, 0]) ready).titles.protect ≠ ready.titles.protect
      ∧ ((after (.mark master [0, 7]) { ready with titles := { ready.titles with armed := true } }).titles.activeBank.get 0).key
        ≠ (ready.titles.activeBank.get 0).key := by decide +kernel

end Sys2Proof.Tests
end

section
/-! SUPPORT. The Title Table: what the key lookup finds (R3), and the changeover requests ARM, DISARM and COPY (R10, R11,
R12). -/

namespace Sys2Proof.Machine

/-! ### Key lookup -/

/-- What stands in a table is what its indices name. -/
theorem Table.mem_list_iff {α : Type} {n : Nat} {t : Table α n} {x : α} : x ∈ t.list ↔ ∃ i, t.get i = x := by
  rw [List.mem_iff_get]
  exact ⟨fun ⟨k, hk⟩ => ⟨k.cast t.len, hk⟩, fun ⟨i, hi⟩ => ⟨i.cast t.len.symm, hi⟩⟩

/-- The search counts from its starting index what the library's search counts from 0. -/
theorem findSlot_eq (key : TitleKey) (i : Nat) (rs : List TitleRecord) :
    findSlot key i rs = (rs.findIdx? fun r => r.key = key).map (i + ·) := by
  induction rs generalizing i with
  | nil => rfl
  | cons r rs ih =>
    rw [findSlot, List.findIdx?_cons, ih]
    by_cases h : r.key = key
    · simp [h]
    · simp [h, Function.comp_def, Nat.add_comm, Nat.add_left_comm]

/-- The lookup gives no slot exactly for key 0 and for a key that no slot of the active bank holds (R3). -/
theorem TitleTable.slotOf_eq_none_iff (t : TitleTable) (key : TitleKey) :
    t.slotOf key = none ↔ key = 0 ∨ ∀ i, (t.activeBank.get i).key ≠ key := by
  simp [TitleTable.slotOf, findSlot_eq, List.findIdx?_eq_none_iff, Table.mem_list_iff, or_iff_not_imp_left]

/-- A slot that the lookup gives holds the key (R3). -/
theorem TitleTable.key_of_slotOf_eq_some {t : TitleTable} {key : TitleKey} {i : Fin 512} (h : t.slotOf key = some i) :
    (t.activeBank.get i).key = key := by
  unfold TitleTable.slotOf at h
  split at h
  · cases h
  · rw [findSlot_eq, Option.map_map, Option.map_eq_some_iff] at h
    obtain ⟨k, hk, rfl⟩ := h
    obtain ⟨hlt, hkey, -⟩ := List.findIdx?_eq_some_iff_getElem.mp hk
    have hk512 : k < 512 := t.activeBank.len ▸ hlt
    simpa [Table.get_eq, Nat.mod_eq_of_lt hk512] using hkey

/-- In a bank without repeated keys the lookup gives the slot that holds the key (R3, R5). -/
theorem TitleTable.slotOf_of_holds {t : TitleTable} {key : TitleKey} {i : Fin 512} (hu : Bank.unique t.activeBank)
    (h0 : key ≠ 0) (hi : (t.activeBank.get i).key = key) : t.slotOf key = some i := by
  cases hs : t.slotOf key with
  | none =>
    rcases (t.slotOf_eq_none_iff key).mp hs with hz | habsent
    · exact absurd hz h0
    · exact absurd hi (habsent i)
  | some j =>
    have hj := TitleTable.key_of_slotOf_eq_some hs
    rw [hu i j (hi ▸ h0) (hi.trans hj.symm)]

theorem TitleTable.lookup_of_slotOf_eq_none {t : TitleTable} {key : TitleKey} (h : t.slotOf key = none) :
    t.lookup key = none := by
  rw [TitleTable.lookup, h, Option.map_none]

theorem TitleTable.lookup_of_slotOf_eq_some {t : TitleTable} {key : TitleKey} {i : Fin 512} (h : t.slotOf key = some i) :
    t.lookup key = some ⟨i, (t.activeBank.get i).data⟩ := by
  rw [TitleTable.lookup, h, Option.map_some]

/-- Settles O37, from the two outcomes of the search over the active bank. -/
theorem keyLookupFindsSlot : Obligations.KeyLookupFindsSlot := by
  intro t key
  refine ⟨fun hz => ?_, fun habsent => ?_, fun i hu h0 hi => ?_⟩
  · have hs := (t.slotOf_eq_none_iff key).mpr (.inl hz)
    exact ⟨TitleTable.lookup_of_slotOf_eq_none hs, hs⟩
  · have hs := (t.slotOf_eq_none_iff key).mpr (.inr habsent)
    exact ⟨TitleTable.lookup_of_slotOf_eq_none hs, hs⟩
  · have hs := TitleTable.slotOf_of_holds hu h0 hi
    exact ⟨TitleTable.lookup_of_slotOf_eq_some hs, hs⟩

/-! ### The bank a COPY would leave -/

theorem protectedFrom_eq (p : Fin 4) : protectedFrom p = firstProtected p := by
  revert p
  decide

/-- The copied bank, slot by slot: the active bank below the protected slots, the standby bank in them (R12). -/
theorem TitleTable.copied_get (t : TitleTable) (i : Fin 512) :
    t.copied.get i
      = if i.val < firstProtected t.protect then t.activeBank.get i else t.standbyBank.get i := by
  have hlen : t.activeBank.list.length = 512 := t.activeBank.len
  have hi := i.isLt
  simp only [← protectedFrom_eq, Table.get_eq, TitleTable.copied, List.getElem_append, List.length_take,
    List.getElem_take, List.getElem_drop]
  split
  · rw [if_pos (by omega)]
  · rw [if_neg (by omega)]
    exact getElem_congr_idx (by omega)

/-! ### Requests answered by the Title Table -/

/-- A request answered OK that leaves the log as its message found it completes with the state `u` it has made (R129). -/
theorem completes_okReply {s u : State} {c : Instr} {h : Envelope} {r : Request} {arg : Byte}
    (hc : exec c s = .next (receive (h.message Kind.ctrl.code [r.code, arg]) s)) (ho : s.obeys h)
    (hr : ctrlRequest r h.tag arg s.arrival = answer h.tag .ok .none { s.arrival with s := u })
    (hp : u.phase = s.arrived.phase) (hm : u.mu = s.arrived.mu) : s.completes c u [u.okReply h.tag] := by
  rw [receive_request ho, hr] at hc
  exact completes_of (e := { s.arrival with s := u }) (ms := [u.okReply h.tag]) hc rfl
    (hp.trans ((State.arrived_phase s).trans ho.1)) (Ev.owes_of_eq s.arrival_owes hm rfl)

/-- A request that is answered without a change has no effect but its REPLY. -/
theorem onlyAnswers_request {s : State} {c : Instr} {h : Envelope} {r : Request} {arg : Byte} {st : Status} {why : Reason}
    (hc : exec c s = .next (receive (h.message Kind.ctrl.code [r.code, arg]) s)) (ho : s.obeys h)
    (hr : ctrlRequest r h.tag arg s.arrival = answer h.tag st why s.arrival) : s.onlyAnswers c h.tag st why := by
  rw [receive_request ho, hr] at hc
  exact answers_of ho hc

/-- Settles O23: ARM by whether the standby bank holds a title, COPY by whether the bank it would leave repeats a key. -/
theorem changeoverRequests : Obligations.ChangeoverRequests := by
  intro h arg s ho
  refine ⟨fun hocc => ?_, fun hempty => ?_, ?_, fun b hb => ?_⟩
  · have ht := (Bank.hasTitle_iff s.arrived.titles.standbyBank).mpr hocc
    exact completes_okReply (r := .arm) (exec_carried rfl s) ho (if_pos ht) rfl rfl
  · have ht : ¬ Bank.hasTitle s.arrived.titles.standbyBank = true := by
      rw [Bank.hasTitle_iff]
      exact fun ⟨i, hi⟩ => hi (hempty i)
    exact onlyAnswers_request (r := .arm) (exec_carried rfl s) ho (if_neg ht)
  · exact completes_okReply (r := .disarm) (exec_carried rfl s) ho rfl rfl rfl
  · have hcopied : b = s.arrived.titles.copied :=
      Table.ext_get fun i => (hb i).trans (TitleTable.copied_get _ i).symm
    subst hcopied
    rw [← Bank.keysUnique_iff]
    exact ⟨fun hu => completes_okReply (r := .copy) (exec_carried rfl s) ho (if_pos hu) rfl rfl,
      fun hu => onlyAnswers_request (r := .copy) (exec_carried rfl s) ho (if_neg hu)⟩

end Sys2Proof.Machine
end

section
/-! SUPPORT. WRITEs to the settings regions: how one reaches its region and is answered (R159, R160), and the checks of
LIMITS and CALIBRATION (R20, R49, R61, R102). -/

namespace Sys2Proof.Machine

/-! ### Fields of a WRITE -/

theorem natAt1_le (p : List Byte) (i : Nat) : natAt1 p i ≤ 255 := Nat.le_of_lt_succ (byteAt p i).isLt

theorem natAt2_le (p : List Byte) (i : Nat) : natAt2 p i ≤ 65535 := Nat.le_of_lt_succ (wordAt p i).isLt

theorem intAt2_mem (p : List Byte) (i : Nat) : -32768 ≤ intAt2 p i ∧ intAt2 p i ≤ 32767 :=
  ⟨BitVec.le_toInt (wordAt p i), Int.le_of_lt_add_one (BitVec.toInt_lt (x := wordAt p i))⟩

/-- A two-byte field read and written again is its two bytes (R146). -/
theorem bytes2_wordAt (p : List Byte) (i : Nat) : bytes2 (wordAt p i) = [byteAt p i, byteAt p (i + 1)] := by
  rw [bytes2, wordAt, BitVec.extractLsb'_append_eq_left, BitVec.extractLsb'_append_eq_right]

@[simp] theorem Region.ofCode_code (r : Region) : Region.ofCode r.code = some r := by cases r <;> rfl

/-- The REPLY to a WRITE long enough for its region, index and count echoes all three (R160). -/
theorem echo_region {rest : List Byte} (hrest : 3 ≤ rest.length) (st : Status) (r : Region) :
    echo st (r.code :: rest) = st.code :: r.code :: rest.take 3 := by
  match rest, hrest with
  | i :: j :: k :: v, _ =>
    rw [echo, if_pos (by simp), bytes2_wordAt]
    rfl

/-- The LENGTH check of a region that takes one record at a time. -/
theorem lengthOk_single_iff {rest : List Byte} (hrest : 3 ≤ rest.length) (code : Byte) (size : Nat) :
    lengthOk (code :: rest) 1 1 size = true ↔ natAt1 rest 2 = 1 ∧ (rest.drop 3).length = size := by
  have hcount : reqCount (code :: rest) = natAt1 rest 2 := rfl
  rw [lengthOk, decide_eq_true_iff, hcount, List.length_cons, List.length_drop]
  constructor
  · rintro ⟨hlo, hhi, hlen⟩
    have hk : natAt1 rest 2 = 1 := by omega
    rw [hk] at hlen
    omega
  · rintro ⟨hk, hlen⟩
    rw [hk]
    omega

/-! ### From a WRITE to its completion -/

/-- A WRITE to a region reaches the region's checks (R159). -/
theorem write_region {rest : List Byte} (hrest : 3 ≤ rest.length) (r : Region) (tag : Byte) (e : Ev) :
    write tag (r.code :: rest) e = writeTo r tag (r.code :: rest) e := by
  have hcode : Region.ofCode (byteAt (r.code :: rest) 0) = some r := Region.ofCode_code r
  unfold write
  rw [if_neg (by simpa using hrest), hcode]

/-- A WRITE whose region's checks come to status `st` and state `u` completes with `u`, answered `st` (R159, R160). -/
theorem completes_write {s u : State} {c : Instr} {h : Envelope} {r : Region} {rest : List Byte} {st : Status}
    {f : List Byte → State → Written}
    (hc : exec c s = .next (receive (h.message Kind.write.code (r.code :: rest)) s)) (ho : s.obeys h)
    (hmin : 3 ≤ rest.length) (hmax : rest.length ≤ 55) (hr : writeTo r = writeRegion f)
    (hf : f (r.code :: rest) s.arrived = (st, u)) (hp : u.phase = s.arrived.phase) (hm : u.mu = s.arrived.mu) :
    s.completes c u [u.writeReply h.tag st r rest] := by
  have hevent : write h.tag (r.code :: rest) s.arrival
      = handAll [u.writeReply h.tag st r rest] { s.arrival with s := u } := by
    rw [write_region hmin, hr, writeRegion, State.arrival_s, hf, respond, echo_region hmin]
    rfl
  rw [exec_write ho (by rw [List.length_cons]; omega), hevent] at hc
  exact completes_of hc rfl (hp.trans ((State.arrived_phase s).trans ho.1)) (Ev.owes_of_eq s.arrival_owes hm rfl)

/-- The checks of a region written in CONFIG only: form, range, run state; `u` is the state once all have passed. -/
def configWrite (form range : Bool) (s u : State) : Written :=
  if !form then (.length, s) else if !range then (.range, s) else if s.rc.state ≠ .config then (.state, s) else (.ok, u)

/-- A WRITE to a region written in CONFIG only is answered by the first check that fails with nothing changed, and
otherwise has its effect (R159). -/
theorem configWrite_settles {s u : State} {c : Instr} {h : Envelope} {r : Region} {rest : List Byte}
    {f : List Byte → State → Written} {form range : Bool}
    (hc : exec c s = .next (receive (h.message Kind.write.code (r.code :: rest)) s)) (ho : s.obeys h)
    (hmin : 3 ≤ rest.length) (hmax : rest.length ≤ 55) (hr : writeTo r = writeRegion f)
    (hf : f (r.code :: rest) s.arrived = configWrite form range s.arrived u) (hp : u.phase = s.arrived.phase)
    (hm : u.mu = s.arrived.mu) :
    (¬ form → s.refusesWrite c h .length r rest)
    ∧ (form → ¬ range → s.refusesWrite c h .range r rest)
    ∧ (form → range → s.arrived.rc.state ≠ .config → s.refusesWrite c h .state r rest)
    ∧ (form → range → s.arrived.rc.state = .config → s.acceptsWrite c h r rest u) := by
  have refused : ∀ st, configWrite form range s.arrived u = (st, s.arrived) → s.refusesWrite c h st r rest :=
    fun st hst => completes_write hc ho hmin hmax hr (hf.trans hst) rfl rfl
  refine ⟨fun hform => refused _ ?_, fun hform hrange => refused _ ?_, fun hform hrange hrun => refused _ ?_,
    fun hform hrange hrun => completes_write hc ho hmin hmax hr (hf.trans ?_) hp hm⟩
  · simp [configWrite, hform]
  · simp [configWrite, hform, hrange]
  · simp only [configWrite, hform, hrange, Bool.not_true, Bool.false_eq_true, if_false, if_pos hrun]
  · simp only [configWrite, hform, hrange, hrun, Bool.not_true, Bool.false_eq_true, if_false, ne_eq, not_true_eq_false]

/-! ### LIMITS -/

theorem writeLimits_eq (p : List Byte) (s : State) :
    writeLimits p s = configWrite (lengthOk p 1 1 13) (reqIndex p == 0 && (Limits.read (p.drop 4)).inRange) s
      { s with limits := Limits.read (p.drop 4) } := by
  simp [writeLimits, configWrite]

theorem marksInRange_iff (low high capacity : Nat) :
    marksInRange low high capacity = true ↔ low < high ∧ high ≤ capacity := decide_eq_true_iff

/-- The fields of a LIMITS record and their ranges (R49, R61, R102). -/
theorem Limits.inRange_iff (l : Limits) :
    l.inRange = true ↔
      (l.bqLow < l.bqHigh ∧ l.bqHigh ≤ 24) ∧ (l.cqLow < l.cqHigh ∧ l.cqHigh ≤ 16)
        ∧ (l.jqLow < l.jqHigh ∧ l.jqHigh ≤ 16) ∧ l.caseWindow ≤ 4 ∧ l.jacketWindow ≤ 4
        ∧ (1 ≤ l.casingWait ∧ l.casingWait ≤ 255) ∧ (1 ≤ l.pressWait ∧ l.pressWait ≤ 255)
        ∧ (1 ≤ l.jacketWait ∧ l.jacketWait ≤ 255) ∧ (1 ≤ l.fitFail ∧ l.fitFail ≤ 3) ∧ (1 ≤ l.stale ∧ l.stale ≤ 255) := by
  simp only [Limits.inRange, Bool.and_eq_true, marksInRange_iff, decide_eq_true_eq, Config.bqCapacity, Config.cqCapacity,
    Config.jqCapacity, and_assoc]

/-- In a record read from a WRITE the one-byte fields need no upper bound of 255. -/
theorem Limits.inRange_read_iff {l : Limits} {v : List Byte} (hl : l = Limits.read v) :
    l.inRange = true ↔
      (l.bqLow < l.bqHigh ∧ l.bqHigh ≤ 24) ∧ (l.cqLow < l.cqHigh ∧ l.cqHigh ≤ 16)
        ∧ (l.jqLow < l.jqHigh ∧ l.jqHigh ≤ 16) ∧ l.caseWindow ≤ 4 ∧ l.jacketWindow ≤ 4 ∧ 1 ≤ l.casingWait
        ∧ 1 ≤ l.pressWait ∧ 1 ≤ l.jacketWait ∧ (1 ≤ l.fitFail ∧ l.fitFail ≤ 3) ∧ 1 ≤ l.stale := by
  have hcasing : l.casingWait ≤ 255 := hl ▸ natAt1_le v 8
  have hpress : l.pressWait ≤ 255 := hl ▸ natAt1_le v 9
  have hjacket : l.jacketWait ≤ 255 := hl ▸ natAt1_le v 10
  have hstale : l.stale ≤ 255 := hl ▸ natAt1_le v 12
  simp only [Limits.inRange_iff, hcasing, hpress, hjacket, hstale, and_true]

/-! ### CALIBRATION -/

theorem writeCalibration_eq (p : List Byte) (s : State) :
    writeCalibration p s
      = configWrite (lengthOk p 1 1 14) (reqIndex p == 0 && (Calibration.read (p.drop 4)).inRange) s
        { s with ccu := ⟨Calibration.read (p.drop 4), true⟩ } := by
  simp [writeCalibration, configWrite]

/-- In a record read from a WRITE the fields whose range is that of their two bytes need no check (Table 2-1). -/
theorem Calibration.inRange_read_iff {c : Calibration} {v : List Byte} (hc : c = Calibration.read v) :
    c.inRange = true ↔
      (-2048 ≤ c.ofs ∧ c.ofs ≤ 2047) ∧ c.brk ≤ 16383 ∧ 1 ≤ c.g1 ∧ 1 ≤ c.g2 ∧ c.tref ≤ 4095 := by
  have hg1 : c.g1 ≤ 65535 := hc ▸ natAt2_le v 4
  have hg2 : c.g2 ≤ 65535 := hc ▸ natAt2_le v 6
  have htco : -32768 ≤ c.tco ∧ c.tco ≤ 32767 := hc ▸ intAt2_mem v 10
  have htso : -32768 ≤ c.tso ∧ c.tso ≤ 32767 := hc ▸ intAt2_mem v 12
  simp only [Calibration.inRange, decide_eq_true_eq, hg1, hg2, htco, htso, true_and, and_true, and_assoc]

/-! ### Both regions -/

/-- Settles O28: each region's WRITE runs the checks of `configWrite`, and their Boolean forms say what R20, R49, R61 and
R102 ask. -/
theorem limitsAndCalibrationWritten : Obligations.LimitsAndCalibrationWritten := by
  intro h rest s ho hmin hmax a n k v l lRange c cRange
  obtain ⟨lLength, lOut, lState, lOk⟩ := configWrite_settles (c := .limitsWrite h rest) (r := .limits)
    (exec_carried rfl s) ho hmin hmax rfl (writeLimits_eq _ _) rfl rfl
  obtain ⟨cLength, cOut, cState, cOk⟩ := configWrite_settles (c := .calibrationWrite h rest) (r := .calibration)
    (exec_carried rfl s) ho hmin hmax rfl (writeCalibration_eq _ _) rfl rfl
  have lForm := lengthOk_single_iff hmin Region.limits.code 13
  have cForm := lengthOk_single_iff hmin Region.calibration.code 14
  have lIff : (n == 0 && l.inRange) = true ↔ lRange := by
    rw [Bool.and_eq_true, beq_iff_eq, Limits.inRange_read_iff (l := l) (v := v) rfl]
  have cIff : (n == 0 && c.inRange) = true ↔ cRange := by
    rw [Bool.and_eq_true, beq_iff_eq, Calibration.inRange_read_iff (c := c) (v := v) rfl]
  exact ⟨fun hf => lLength (mt lForm.mp hf),
    fun hk hv hr => lOut (lForm.mpr ⟨hk, hv⟩) (mt lIff.mp hr),
    fun hk hv hr => lState (lForm.mpr ⟨hk, hv⟩) (lIff.mpr hr),
    fun hk hv hr => lOk (lForm.mpr ⟨hk, hv⟩) (lIff.mpr hr),
    fun hf => cLength (mt cForm.mp hf),
    fun hk hv hr => cOut (cForm.mpr ⟨hk, hv⟩) (mt cIff.mp hr),
    fun hk hv hr => cState (cForm.mpr ⟨hk, hv⟩) (cIff.mpr hr),
    fun hk hv hr => cOk (cForm.mpr ⟨hk, hv⟩) (cIff.mpr hr)⟩

end Sys2Proof.Machine
end

section
/-! SUPPORT. The caliper correction (R23 to R26): each stage of the model as the integer that the manual's formula gives. -/

namespace Sys2Proof.Machine

/-! ### Stages 1 to 3 -/

theorem caliperX_cast (c : Calibration) (rt : Nat) :
    (caliperX c rt : Int) = max 0 (min 16383 ((min 16383 rt : Nat) - c.ofs)) :=
  Int.toNat_of_nonneg (le_max_left _ _)

theorem caliperU_cast (c : Calibration) (x : Nat) :
    (caliperU c x : Int) = if (x : Int) ≤ c.brk then (x : Int) * c.g1 else c.brk * c.g1 + ((x : Int) - c.brk) * c.g2 := by
  unfold caliperU
  by_cases hx : x ≤ c.brk
  · rw [if_pos hx, if_pos (by exact_mod_cast hx), Nat.cast_mul]
  · rw [if_neg hx, if_neg (by exact_mod_cast hx), Nat.cast_add, Nat.cast_mul, Nat.cast_mul,
      Nat.cast_sub (le_of_not_ge hx)]

theorem caliperB_cast (u : Nat) : (caliperB u : Int) = ((u : Int) + 2048) / 4096 := by
  rw [caliperB, Int.natCast_ediv, Nat.cast_add]
  rfl

/-! ### Stage 5 -/

/-- Rounding to nearest with halves away from zero determines its result (R25). -/
theorem caliperRound_unique {v k : Int} (hnear : |v - 65536 * k| ≤ 32768)
    (hhalf : |v - 65536 * k| = 32768 → |v| < |65536 * k|) : caliperRound v = k := by
  obtain ⟨hlo, hhi⟩ := abs_le.mp hnear
  unfold caliperRound
  split
  case isTrue hv =>
    have htie : v - 65536 * k ≠ 32768 := fun h => by
      have hlt := hhalf (by rw [h]; rfl)
      rw [abs_of_nonneg hv, abs_of_nonneg (by omega)] at hlt
      omega
    omega
  case isFalse hv =>
    have htie : v - 65536 * k ≠ -32768 := fun h => by
      have hlt := hhalf (by rw [h]; rfl)
      rw [abs_of_neg (by omega), abs_of_nonpos (by omega)] at hlt
      omega
    omega

/-! ### Stage 6 -/

theorem correct_thickness_cast (c : Calibration) (rt tr : Nat) :
    ((correct c rt tr).thickness : Int) = max 0 (min 12000 (caliperRaw c rt tr)) :=
  Int.toNat_of_nonneg (le_max_left _ _)

theorem correct_clamped_iff (c : Calibration) (rt tr : Nat) :
    (correct c rt tr).clamped = true ↔ caliperRaw c rt tr < 0 ∨ 12000 < caliperRaw c rt tr := by
  simp [correct]

/-- Settles O38: the stages join to the value before the final clamp, which decides both the thickness and the flag. -/
theorem caliperCorrection : Obligations.CaliperCorrection := by
  rintro c rt tr corr x u b dt q sum ⟨hnear, hhalf⟩
  have hb : (caliperB (caliperU c (caliperX c rt)) : Int) = b := by
    rw [caliperB_cast, caliperU_cast, caliperX_cast]
  have hcorr : caliperRound (caliperSum c tr) = corr := caliperRound_unique hnear hhalf
  have hraw : caliperRaw c rt tr = b + corr := by rw [caliperRaw, hb, hcorr]
  rw [correct_thickness_cast, correct_clamped_iff, hraw]
  exact ⟨rfl, Iff.rfl⟩

end Sys2Proof.Machine
end

section
/-! SUPPORT. The Iron Monitor: when a bank is in alarm (R100), and the stale advance of a press index (R101). -/

namespace Sys2Proof.Machine

/-! ### Banks in alarm -/

theorem Comparator.alarming_iff (c : Comparator) : c.alarming = true ↔ c.config.enable = true ∧ c.on = true :=
  Bool.and_eq_true_iff

theorem IronMonitor.inAlarm_iff (m : IronMonitor) (b : IronBank) :
    m.inAlarm b = true ↔
      (∃ i ∈ comparatorsOf b, (m.comparators.get i).config.enable = true ∧ (m.comparators.get i).on = true)
        ∨ (m.bank b).sense = .stale := by
  simp only [IronMonitor.inAlarm, Bool.or_eq_true, List.any_eq_true, Comparator.alarming_iff, beq_iff_eq]

/-! ### A record logged when a condition holds -/

@[simp] theorem State.loggingIf_iron (c : Bool) (code : AlertCode) (stage : Byte) (serial : Serial) (key : TitleKey)
    (detail : Word) (s : State) : (s.loggingIf c code stage serial key detail).iron = s.iron := by
  cases c <;> rfl

@[simp] theorem State.loggingIf_limits (c : Bool) (code : AlertCode) (stage : Byte) (serial : Serial) (key : TitleKey)
    (detail : Word) (s : State) : (s.loggingIf c code stage serial key detail).limits = s.limits := by
  cases c <;> rfl

/-- What is logged does not depend on the Iron Monitor, so replacing the monitor and logging commute. -/
theorem State.loggingIf_setIron (c : Bool) (code : AlertCode) (stage : Byte) (serial : Serial) (key : TitleKey)
    (detail : Word) (m : IronMonitor) (s : State) :
    { s.loggingIf c code stage serial key detail with iron := m }
      = ({ s with iron := m }).loggingIf c code stage serial key detail := by
  cases c <;> rfl

/-! ### The stale advance -/

theorem BankRecord.advance_eq_next (r : BankRecord) (limit : Nat) : r.advance limit = r.next limit := rfl

/-- One bank's advance replaces that bank's record, and logs SENSE_STALE when its sense state changes. -/
theorem advanceBank_s (b : IronBank) (e : Ev) :
    (advanceBank b e).s =
      ({ e.s with iron := e.s.iron.setBank ((e.s.iron.bank b).next e.s.limits.stale) b }).loggingIf
        (((e.s.iron.bank b).next e.s.limits.stale).sense != (e.s.iron.bank b).sense) .senseStale 17 0 0
        (BitVec.ofNat 16 b.code) := by
  rw [← BankRecord.advance_eq_next]
  by_cases hkept : ((e.s.iron.bank b).advance e.s.limits.stale).sense = (e.s.iron.bank b).sense
  · rw [State.loggingIf, if_neg (by simpa using hkept), advanceBank, if_pos hkept]
  · rw [State.loggingIf, if_pos (by simpa using hkept), advanceBank, if_neg hkept]
    rfl

@[simp] theorem advanceBank_feeds (b : IronBank) (e : Ev) : (advanceBank b e).feeds = e.feeds := by
  simp only [advanceBank, apply_ite Ev.feeds, logAlert_feeds, ite_self]

/-- The REAR bank's advance finds its record and the limit as the FORWARD bank's left them: untouched. -/
theorem advanceStale_s (e : Ev) : (advanceStale e).s = e.s.staleAdvanced := by
  rw [advanceStale, advanceBank_s .rear, advanceBank_s .forward, State.loggingIf_setIron, State.loggingIf_iron,
    State.loggingIf_limits]
  rfl

@[simp] theorem advanceStale_feeds (e : Ev) : (advanceStale e).feeds = e.feeds := by
  rw [advanceStale, advanceBank_feeds, advanceBank_feeds]

/-- Settles O43: the alarm question asks a bank's two comparators and its record; the stale advance is the advance of
each bank in turn. -/
theorem staleBanksAndAlarm : Obligations.StaleBanksAndAlarm := by
  intro e b lo hi m
  refine ⟨?_, advanceStale_s e, advanceStale_feeds e⟩
  rw [IronMonitor.inAlarm_iff]
  cases b with
  | forward => simp [comparatorsOf, IronMonitor.bank, lo, hi, or_assoc]
  | rear => simp [comparatorsOf, IronMonitor.bank, lo, hi, or_assoc]

end Sys2Proof.Machine
end

section
/-! SUPPORT. The accounting equation (R125): what it says of the collections and the totals, what a batch of tallies does to
it, which operations leave both alone, and which items each of the others closes. -/

namespace Sys2Proof.Machine

/-! ### The account of a state -/

/-- What the accounting equation speaks of: the collections and the run totals. -/
structure Account where
  queues : Queues
  totals : Totals

def State.account (s : State) : Account := ⟨s.queues, s.totals⟩

/-- The sighted items of a type that are held (R125). -/
def Queues.sighted (q : Queues) : ItemType → Nat
  | .block => q.blockSerials.length
  | .caseItem => q.cq.length
  | .jacket => q.jq.length

/-- Every entry of BQ, CQ and JQ has a serial (R38). -/
def Queues.named (q : Queues) : Prop :=
  0 ∉ q.bq.map BlockEntry.serial ∧ 0 ∉ q.cq.map CaseEntry.serial ∧ 0 ∉ q.jq.map JacketEntry.serial

/-- No total of a type's sighted items has saturated (R123). -/
def ItemTotals.unsaturated (c : ItemTotals) : Prop :=
  c.accepted < 4294967295 ∧ c.good < 4294967295 ∧ c.inspect < 4294967295 ∧ c.reject < 4294967295
    ∧ c.lost < 4294967295 ∧ c.purged < 4294967295

def Account.unsaturated (a : Account) : Prop := ∀ i, (a.totals.of i).unsaturated

def Account.balanced (a : Account) : Prop :=
  ∀ i, (a.totals.of i).accepted = a.queues.sighted i + (a.totals.of i).closed

/-- An event that finds `a` and leaves `b` keeps the accounting equation, as long as no total has saturated. -/
def Account.keeps (a b : Account) : Prop := a.queues.named → b.unsaturated → a.balanced → b.balanced

theorem Account.keeps_of_eq {a b : Account} (h : b = a) : a.keeps b := fun _ _ hbal => h ▸ hbal

theorem ItemType.forall_iff {p : ItemType → Prop} : (∀ i, p i) ↔ p .block ∧ p .caseItem ∧ p .jacket :=
  ⟨fun h => ⟨h _, h _, h _⟩, fun ⟨hb, hc, hj⟩ i => by cases i <;> assumption⟩

theorem State.balanced_iff (s : State) : s.balanced ↔ s.account.balanced := by
  rw [Account.balanced, ItemType.forall_iff]
  rfl

theorem State.unsaturated_iff (s : State) : s.unsaturated ↔ s.account.unsaturated := by
  simp only [State.unsaturated, List.forall_mem_cons, List.not_mem_nil, false_implies, implies_true, and_true,
    Account.unsaturated, ItemType.forall_iff]
  rfl

/-! ### Serials -/

/-- How many serials of a list are those of sighted items. -/
def sightedIn (l : List Serial) : Nat := l.countP fun x => x != 0

@[simp] theorem sightedIn_nil : sightedIn [] = 0 := rfl

@[simp] theorem sightedIn_append (l m : List Serial) : sightedIn (l ++ m) = sightedIn l + sightedIn m :=
  List.countP_append

theorem sightedIn_cons (x : Serial) (l : List Serial) : sightedIn (x :: l) = sightedIn [x] + sightedIn l :=
  sightedIn_append [x] l

theorem sightedIn_of_named {l : List Serial} (h : 0 ∉ l) : sightedIn l = l.length :=
  List.countP_eq_length.mpr fun x hx => by simpa using fun h0 : x = 0 => h (h0 ▸ hx)

/-- The serials of a type's held items, collection by collection. -/
def Queues.serials (q : Queues) : ItemType → List Serial
  | .block => q.bq.map BlockEntry.serial ++ (q.tq.map BookRecord.serial
      ++ (q.pt.records.map BookRecord.serial ++ q.aq.map BookRecord.serial))
  | .caseItem => q.cq.map CaseEntry.serial
  | .jacket => q.jq.map JacketEntry.serial

theorem Queues.sighted_eq {q : Queues} (h : q.named) (i : ItemType) : q.sighted i = sightedIn (q.serials i) := by
  obtain ⟨hb, hc, hj⟩ := h
  cases i with
  | block =>
    simp only [Queues.sighted, Queues.blockSerials, Queues.serials, List.map_append, List.append_assoc, List.length_append,
      ← List.countP_eq_length_filter, List.countP_append, sightedIn_append, sightedIn_of_named hb]
    rfl
  | caseItem => simp [Queues.sighted, Queues.serials, sightedIn_of_named hc]
  | jacket => simp [Queues.sighted, Queues.serials, sightedIn_of_named hj]

/-! ### Tallies -/

/-- How many of the tallies close a sighted item of a type (R125). -/
def closings (i : ItemType) (ys : List Tally) : Nat := ys.countP fun y => y.item == i && y.serial != 0

@[simp] theorem closings_nil (i : ItemType) : closings i [] = 0 := rfl

@[simp] theorem closings_append (i : ItemType) (ys zs : List Tally) :
    closings i (ys ++ zs) = closings i ys + closings i zs :=
  List.countP_append

theorem closings_cons (i : ItemType) (y : Tally) (ys : List Tally) :
    closings i (y :: ys) = closings i [y] + closings i ys :=
  closings_append i [y] ys

/-- One tally closes the item of its serial, if that was sighted. -/
theorem closings_singleton (i : ItemType) (y : Tally) :
    closings i [y] = if i = y.item then sightedIn [y.serial] else 0 := by
  by_cases h : i = y.item
  · simp [closings, sightedIn, List.countP_cons, h]
  · simp [closings, h, Ne.symm h]

/-- Tallies of one type close as many items as their serials name. -/
theorem closings_map {α : Type} {f : α → Tally} {item : ItemType} {serial : α → Serial} (hi : ∀ x, (f x).item = item)
    (hs : ∀ x, (f x).serial = serial x) (i : ItemType) (xs : List α) :
    closings i (xs.map f) = if i = item then sightedIn (xs.map serial) else 0 := by
  induction xs with
  | nil => simp
  | cons x xs ih =>
    rw [List.map_cons, closings_cons, ih, closings_singleton, hi, hs, List.map_cons,
      sightedIn_cons (serial x) (xs.map serial)]
    split <;> rfl

/-! ### Totals under tallies -/

theorem Totals.of_set (t : Totals) (c : ItemTotals) (i j : ItemType) : (t.set c i).of j = if j = i then c else t.of j := by
  cases i <;> cases j <;> rfl

/-- A column that has not saturated after a tally had not before, and its routes count the tally of a sighted item. -/
theorem ItemTotals.tallied_closed {c : ItemTotals} {serial : Serial} {route : Route}
    (h : (c.tallied serial route).unsaturated) :
    c.unsaturated ∧ (c.tallied serial route).accepted = c.accepted
      ∧ (c.tallied serial route).closed = c.closed + sightedIn [serial] := by
  unfold ItemTotals.unsaturated ItemTotals.closed ItemTotals.tallied at *
  by_cases h0 : serial = 0
  · rw [if_pos h0] at h ⊢
    exact ⟨h, rfl, by simp [h0, sightedIn]⟩
  · have h1 : sightedIn [serial] = 1 := by
      rw [sightedIn, List.countP_singleton]
      simpa using h0
    rw [if_neg h0] at h ⊢
    cases route <;> simp only [total1, satAdd, Config.totalTop, true_and, h1] at h ⊢ <;> omega

/-- The same of a batch of tallies, column by column. -/
theorem Totals.talliedAll_closed {t : Totals} {ys : List Tally} {i : ItemType} (h : ((t.talliedAll ys).of i).unsaturated) :
    (t.of i).unsaturated ∧ ((t.talliedAll ys).of i).accepted = (t.of i).accepted
      ∧ ((t.talliedAll ys).of i).closed = (t.of i).closed + closings i ys := by
  induction ys generalizing t with
  | nil => exact ⟨h, rfl, rfl⟩
  | cons y ys ih =>
    obtain ⟨hu, ha, hc⟩ := ih h
    rw [Totals.talliedAll, ha, hc, closings_cons, closings_singleton]
    rw [Totals.tallied, Totals.of_set] at hu ⊢
    by_cases hi : i = y.item
    · subst hi
      rw [if_pos rfl] at hu ⊢
      obtain ⟨hu', ha', hc'⟩ := ItemTotals.tallied_closed hu
      exact ⟨hu', ha', by rw [hc', if_pos rfl, Nat.add_assoc]⟩
    · rw [if_neg hi] at hu ⊢
      exact ⟨hu, rfl, by rw [if_neg hi, Nat.zero_add]⟩

theorem Totals.talliedAll_append (t : Totals) (ys zs : List Tally) :
    t.talliedAll (ys ++ zs) = (t.talliedAll ys).talliedAll zs := by
  induction ys generalizing t with
  | nil => rfl
  | cons y ys ih => exact ih (t.tallied y)

/-! ### Items that leave tracking -/

/-- Between `q` and `r` exactly the items of the tallies `ys` have left. -/
def Queues.settles (q : Queues) (ys : List Tally) (r : Queues) : Prop :=
  q.named → r.named ∧ ∀ i, sightedIn (q.serials i) = sightedIn (r.serials i) + closings i ys

/-- The items of `ys` have left, and their tallies are still to be counted. -/
def Account.releases (a : Account) (ys : List Tally) (b : Account) : Prop :=
  b.totals = a.totals ∧ a.queues.settles ys b.queues

/-- The items of `ys` have left and are counted. -/
def Account.closes (a : Account) (ys : List Tally) (b : Account) : Prop :=
  b.totals = a.totals.talliedAll ys ∧ a.queues.settles ys b.queues

theorem Queues.settles.trans {q r u : Queues} {ys zs : List Tally} (h : q.settles ys r) (k : r.settles zs u) :
    q.settles (ys ++ zs) u := fun hq => by
  obtain ⟨hr, hy⟩ := h hq
  obtain ⟨hu, hz⟩ := k hr
  refine ⟨hu, fun i => ?_⟩
  rw [hy, hz, closings_append, Nat.add_right_comm, Nat.add_assoc]

/-- Where nothing moves, only tallies without a sighted item settle. -/
theorem Queues.settles_self {q : Queues} {ys : List Tally} (h : ∀ i, closings i ys = 0) : q.settles ys q :=
  fun hq => ⟨hq, fun i => by rw [h, Nat.add_zero]⟩

theorem Account.releases_refl (a : Account) : a.releases [] a := ⟨rfl, Queues.settles_self closings_nil⟩

theorem Account.releases.trans {a b c : Account} {ys zs : List Tally} (h : a.releases ys b) (k : b.releases zs c) :
    a.releases (ys ++ zs) c := ⟨k.1.trans h.1, Queues.settles.trans h.2 k.2⟩

theorem Account.closes.trans {a b c : Account} {ys zs : List Tally} (h : a.closes ys b) (k : b.closes zs c) :
    a.closes (ys ++ zs) c := ⟨by rw [k.1, h.1, Totals.talliedAll_append], Queues.settles.trans h.2 k.2⟩

theorem Account.closes_refl (a : Account) : a.closes [] a := ⟨rfl, Queues.settles_self closings_nil⟩

theorem Account.releases.counted {a : Account} {ys : List Tally} {e : Ev} (h : a.releases ys e.s.account) :
    a.closes ys (countTallies ys e).s.account :=
  ⟨congrArg (Totals.talliedAll · ys) h.1, h.2⟩

/-- Counting exactly the items that leave keeps the accounting equation (R125). -/
theorem Account.closes.keeps {a b : Account} {ys : List Tally} (h : a.closes ys b) : a.keeps b := by
  intro hn hu hbal i
  obtain ⟨ht, hq⟩ := h
  obtain ⟨hb, hs⟩ := hq hn
  have hui := hu i
  rw [ht] at hui ⊢
  obtain ⟨-, ha, hc⟩ := Totals.talliedAll_closed hui
  rw [ha, hc, hbal i, Queues.sighted_eq hn, Queues.sighted_eq hb, hs]
  omega

/-- An accepted sighting that is held keeps the accounting equation (R44, R45, R46, R125). -/
theorem Account.keeps_sighted {a : Account} {i : ItemType} {r : Queues}
    (h : ∀ j, r.sighted j = a.queues.sighted j + if j = i then 1 else 0) : a.keeps ⟨r, a.totals.sighted i⟩ := by
  intro _ hu hbal j
  have huj := hu j
  have hbj := hbal j
  have hj := h j
  simp only [Totals.sighted, Totals.of_set] at huj ⊢
  by_cases hij : j = i
  · subst hij
    simp only [if_true, ItemTotals.unsaturated, ItemTotals.closed, total1, satAdd, Config.totalTop] at huj hbj hj ⊢
    omega
  · rw [if_neg hij] at hj ⊢
    omega

/-! ### One collection shortened -/

section Shortened
variable {q : Queues}

/-- Items of one type that leave for a tally each settle those tallies. -/
theorem Queues.settles_map {α : Type} {r : Queues} {item : ItemType} {gone : List α} {serial : α → Serial} {f : α → Tally}
    (hi : ∀ x, (f x).item = item) (hs : ∀ x, (f x).serial = serial x) (hn : q.named → r.named)
    (h : ∀ i, sightedIn (q.serials i) = sightedIn (r.serials i) + if i = item then sightedIn (gone.map serial) else 0) :
    q.settles (gone.map f) r :=
  fun hq => ⟨hn hq, fun i => by rw [h, closings_map hi hs]⟩

theorem Queues.settles_bq {gone xs : List BlockEntry} {f : BlockEntry → Tally} (hi : ∀ b, (f b).item = .block)
    (hs : ∀ b, (f b).serial = b.serial) (h : q.bq.map BlockEntry.serial = (gone ++ xs).map BlockEntry.serial) :
    q.settles (gone.map f) { q with bq := xs } := by
  rw [List.map_append] at h
  refine Queues.settles_map hi hs (fun ⟨hb, hc, hj⟩ => ⟨fun h0 => hb (h ▸ List.mem_append_right _ h0), hc, hj⟩) fun i => ?_
  cases i with
  | block =>
    simp only [Queues.serials, h, sightedIn_append, if_true]
    omega
  | _ => rfl

theorem Queues.settles_cq {gone xs : List CaseEntry} {f : CaseEntry → Tally} (hi : ∀ c, (f c).item = .caseItem)
    (hs : ∀ c, (f c).serial = c.serial) (h : q.cq.map CaseEntry.serial = (gone ++ xs).map CaseEntry.serial) :
    q.settles (gone.map f) { q with cq := xs } := by
  rw [List.map_append] at h
  refine Queues.settles_map hi hs (fun ⟨hb, hc, hj⟩ => ⟨hb, fun h0 => hc (h ▸ List.mem_append_right _ h0), hj⟩) fun i => ?_
  cases i with
  | caseItem => simp only [Queues.serials, h, sightedIn_append, if_true, Nat.add_comm]
  | _ => rfl

theorem Queues.settles_jq {gone xs : List JacketEntry} {f : JacketEntry → Tally} (hi : ∀ j, (f j).item = .jacket)
    (hs : ∀ j, (f j).serial = j.serial) (h : q.jq.map JacketEntry.serial = (gone ++ xs).map JacketEntry.serial) :
    q.settles (gone.map f) { q with jq := xs } := by
  rw [List.map_append] at h
  refine Queues.settles_map hi hs (fun ⟨hb, hc, hj⟩ => ⟨hb, hc, fun h0 => hj (h ▸ List.mem_append_right _ h0)⟩) fun i => ?_
  cases i with
  | jacket => simp only [Queues.serials, h, sightedIn_append, if_true, Nat.add_comm]
  | _ => rfl

/-- Book records may move between TQ, PT and AQ; those that leave all three are the ones tallied. -/
theorem Queues.settles_books {gone : List BookRecord} {f : BookRecord → Tally} {tq aq : List BookRecord} {pt : PressTrain}
    (hi : ∀ r, (f r).item = .block) (hs : ∀ r, (f r).serial = r.serial)
    (h : sightedIn (q.tq.map BookRecord.serial) + sightedIn (q.pt.records.map BookRecord.serial)
        + sightedIn (q.aq.map BookRecord.serial)
      = sightedIn (tq.map BookRecord.serial) + sightedIn (pt.records.map BookRecord.serial)
        + sightedIn (aq.map BookRecord.serial) + sightedIn (gone.map BookRecord.serial)) :
    q.settles (gone.map f) { q with tq := tq, pt := pt, aq := aq } := by
  refine Queues.settles_map hi hs id fun i => ?_
  cases i with
  | block =>
    simp only [Queues.serials, sightedIn_append, if_true]
    omega
  | _ => rfl

end Shortened

end Sys2Proof.Machine
end

section
/-! SUPPORT. What each operation of an event does to the account of its state (R125): most leave it alone; emptying, the
cycles and the sightings move items and count them. -/

namespace Sys2Proof.Machine

/-! ### Operations that leave the account alone -/

theorem State.sameButSending_account {s t : State} (h : s.sameButSending t) : t.account = s.account := by
  unfold State.sameButSending at h
  rw [h]
  rfl

@[simp] theorem logAlert_account (code : AlertCode) (stage : Byte) (serial : Serial) (key : TitleKey) (detail : Word)
    (e : Ev) : (logAlert code stage serial key detail e).s.account = e.s.account := rfl

@[simp] theorem formFeed_account (f : Feeder) (v : FeedLevel) (e : Ev) : (formFeed f v e).s.account = e.s.account := rfl

@[simp] theorem formPauses_account (e : Ev) : (formPauses e).s.account = e.s.account := rfl

@[simp] theorem formComputed_account (e : Ev) : (formComputed e).s.account = e.s.account := rfl

@[simp] theorem setRing_account (r : RingPort) (e : Ev) : (setRing r e).s.account = e.s.account := rfl

@[simp] theorem enterConfig_account (e : Ev) : (enterConfig e).s.account = e.s.account := rfl

@[simp] theorem enterRun_account (e : Ev) : (enterRun e).s.account = e.s.account := rfl

@[simp] theorem enterDrain_account (e : Ev) : (enterDrain e).s.account = e.s.account := rfl

@[simp] theorem startRun_account (e : Ev) : (startRun e).s.account = e.s.account := rfl

@[simp] theorem advanceStamp_account (e : Ev) : (advanceStamp e).s.account = e.s.account := rfl

@[simp] theorem State.caused_account (c : Cause) (s : State) : (s.caused c).account = s.account :=
  State.sameButSending_account (State.caused_same c s)

@[simp] theorem hand_account (m : Message) (e : Ev) : (hand m e).s.account = e.s.account :=
  State.sameButSending_account (hand_same m e)

@[simp] theorem handAll_account (ms : List Message) (e : Ev) : (handAll ms e).s.account = e.s.account :=
  State.sameButSending_account (handAll_same ms e)

@[simp] theorem handTallies_account (ys : List Tally) (e : Ev) : (handTallies ys e).s.account = e.s.account :=
  handAll_account _ e

@[simp] theorem answer_account (tag : Byte) (st : Status) (r : Reason) (e : Ev) :
    (answer tag st r e).s.account = e.s.account := hand_account _ e

@[simp] theorem respond_account (tag : Byte) (st : Status) (p : List Byte) (e : Ev) :
    (respond tag st p e).s.account = e.s.account := hand_account _ e

@[simp] theorem computeLevels_account (q : Queues) (e : Ev) : (computeLevels q e).s.account = e.s.account :=
  State.sameButSending_account (computeLevels_same q e)

@[simp] theorem finish_account (e : Ev) : (finish e).account = e.s.account :=
  State.sameButSending_account (finish_same e)

/-- An event outside the running phase has no effect, so it keeps what its operation keeps. -/
theorem event_account {f : Ev → Ev} {s : State} (h : (f (Ev.start s)).s.account = s.account) :
    (event f s).account = s.account := by
  unfold event
  split
  · rw [finish_account, h]
  · rfl

/-! ### Events that leave the account alone -/

@[simp] theorem continuity_account (m : Merge) (n : Word) (e : Ev) : (continuity m n e).s.account = e.s.account := by
  rw [continuity]
  split
  · rfl
  · rw [raiseCause_s, State.caused_account]
    rfl

@[simp] theorem presenceAlert_account {α : Type} (m : Merge) (c : Collection) (serial : α → Serial) (key : α → TitleKey)
    (p : Presence α) (e : Ev) : (presenceAlert m c serial key p e).s.account = e.s.account := by
  cases p <;> rfl

@[simp] theorem starveAlert_account (m : Merge) (c : Collection) (limit : Nat) (serial : Serial) (key : TitleKey)
    (w : Waiting) (e : Ev) : (starveAlert m c limit serial key w e).s.account = e.s.account := by
  unfold starveAlert
  split <;> rfl

@[simp] theorem doseAlert_account (b : Bool) (i : Fin 64) (x : BlockEntry) (e : Ev) :
    (doseAlert b i x e).s.account = e.s.account := by
  cases b <;> rfl

@[simp] theorem blockAlert_account (b : BlockEntry) (e : Ev) : (blockAlert b e).s.account = e.s.account := by
  unfold blockAlert
  split_ifs <;> rfl

@[simp] theorem advanceStale_account (e : Ev) : (advanceStale e).s.account = e.s.account := by
  have bank (b : IronBank) (e : Ev) : (advanceBank b e).s.account = e.s.account := by
    unfold advanceBank
    dsimp only
    split <;> rfl
  rw [advanceStale, bank, bank]

theorem sense_account (src : Node) (p : List Byte) (e : Ev) : (sense src p e).s.account = e.s.account := by
  have one (i : Fin 4) (reading : Int) (e : Ev) : (senseComparator i reading e).s.account = e.s.account := by
    unfold senseComparator
    dsimp only
    split <;> rfl
  have all (is : List (Fin 4)) (reading : Int) (e : Ev) : (senseComparators is reading e).s.account = e.s.account := by
    induction is generalizing e with
    | nil => rfl
    | cons i is ih => rw [senseComparators, ih, one]
  have rejected : (senseRejected src e).s.account = e.s.account := by
    unfold senseRejected
    split <;> rfl
  unfold sense
  split
  · exact rejected
  · split
    · exact all _ _ e
    · exact rejected

theorem mark_account (src : Node) (p : List Byte) (e : Ev) : (mark src p e).s.account = e.s.account := by
  unfold mark
  split
  · dsimp only
    split <;> rfl
  · rfl

theorem proofReturned_account (m : Message) (e : Ev) : (proofReturned m e).s.account = e.s.account := by
  unfold proofReturned
  split
  · rfl
  · dsimp only
    split_ifs <;> rfl

theorem proofExpired_account (e : Ev) : (proofExpired e).s.account = e.s.account := by
  unfold proofExpired
  split
  · rfl
  · split <;> rfl

theorem storeDone_account (e : Ev) : (storeDone e).s.account = e.s.account := by
  unfold storeDone
  split <;> rfl

theorem transmitted_account (e : Ev) : (transmitted e).s.account = e.s.account := by
  unfold transmitted
  split <;> rfl

theorem leaveUp_account (l : LinkState) (e : Ev) : (leaveUp l e).s.account = e.s.account := by
  rw [leaveUp, raiseCause_s, State.caused_account]
  rfl

theorem carrierGone_account (e : Ev) : (carrierGone e).s.account = e.s.account := by
  unfold carrierGone
  split
  · rfl
  · rfl
  · exact leaveUp_account _ e

theorem badReceived_account (e : Ev) : (badReceived e).s.account = e.s.account := by
  unfold badReceived
  dsimp only
  split
  · exact leaveUp_account _ _
  · rfl

theorem comeUp_account (e : Ev) : (comeUp e).s.account = e.s.account := by
  unfold comeUp
  split <;> rfl

theorem forward_account (m : Message) (e : Ev) : (forward m e).s.account = e.s.account := by
  unfold forward
  split <;> rfl

theorem stripped_account (m : Message) (e : Ev) : (stripped m e).s.account = e.s.account := by
  have order : (raiseCause .noTaker (logAlert .noTaker 0 0 0 (kindDst m) e)).s.account = e.s.account := by
    rw [raiseCause_s, State.caused_account, logAlert_account]
  rw [stripped]
  cases Kind.ofCode m.kind with
  | none => rfl
  | some k =>
    cases k with
    | feed | casein | press | jacket => exact order
    | proof => exact proofReturned_account m e
    | _ => rfl

/-! ### Requests that leave the account alone -/

/-- A region's checks and its effect concern its settings alone. -/
def keepsAccount (f : List Byte → State → Written) : Prop := ∀ p s, (f p s).2.account = s.account

theorem writeRegion_account {f : List Byte → State → Written} (h : keepsAccount f) (tag : Byte) (p : List Byte) (e : Ev) :
    (writeRegion f tag p e).s.account = e.s.account := by
  rw [writeRegion, respond_account]
  exact h p e.s

theorem writeTitle_keepsAccount : keepsAccount writeTitle := fun p s => by
  unfold writeTitle TitleTable.setStandby
  split
  · rfl
  · split
    · rfl
    · split_ifs <;> rfl

theorem writeDose_keepsAccount : keepsAccount writeDose := fun p s => by
  unfold writeDose
  split
  · rfl
  · split
    · rfl
    · split_ifs <;> rfl

theorem writeProfile_keepsAccount : keepsAccount writeProfile := fun p s => by
  unfold writeProfile
  split
  · rfl
  · split
    · rfl
    · split_ifs <;> rfl

theorem writeCalibration_keepsAccount : keepsAccount writeCalibration := fun p s => by
  unfold writeCalibration
  split_ifs <;> rfl

theorem writeLimits_keepsAccount : keepsAccount writeLimits := fun p s => by
  unfold writeLimits
  split_ifs <;> rfl

theorem writeLinemap_keepsAccount : keepsAccount writeLinemap := fun p s => by
  unfold writeLinemap
  split_ifs <;> rfl

theorem writeNode_keepsAccount : keepsAccount writeNode := fun p s => by
  unfold writeNode
  split_ifs <;> rfl

theorem writeProtect_keepsAccount : keepsAccount writeProtect := fun p s => by
  unfold writeProtect
  split_ifs <;> rfl

theorem writeComparators_account (i : Nat) (cs : List ComparatorConfig) (e : Ev) :
    (writeComparators i cs e).s.account = e.s.account := by
  induction cs generalizing i e with
  | nil => rfl
  | cons c cs ih =>
    rw [writeComparators, ih]
    split <;> rfl

theorem writeTo_account (r : Region) (tag : Byte) (p : List Byte) (e : Ev) :
    (writeTo r tag p e).s.account = e.s.account := by
  cases r with
  | title => exact writeRegion_account writeTitle_keepsAccount tag p e
  | dose => exact writeRegion_account writeDose_keepsAccount tag p e
  | profile => exact writeRegion_account writeProfile_keepsAccount tag p e
  | calibration => exact writeRegion_account writeCalibration_keepsAccount tag p e
  | limits => exact writeRegion_account writeLimits_keepsAccount tag p e
  | linemap => exact writeRegion_account writeLinemap_keepsAccount tag p e
  | node => exact writeRegion_account writeNode_keepsAccount tag p e
  | protect => exact writeRegion_account writeProtect_keepsAccount tag p e
  | comparator => exact (respond_account tag _ p _).trans (writeComparators_account _ _ e)
  | _ => exact respond_account tag .unknown p e

theorem write_account (tag : Byte) (p : List Byte) (e : Ev) : (write tag p e).s.account = e.s.account := by
  unfold write
  split
  · exact respond_account tag _ p e
  · split
    · exact respond_account tag _ p e
    · exact writeTo_account _ tag p e

theorem read_account (tag : Byte) (p : List Byte) (e : Ev) : (read tag p e).s.account = e.s.account := by
  unfold read
  split
  · exact respond_account tag _ p e
  · split
    · exact respond_account tag _ p e
    · rw [hand_account]
      unfold afterRead
      split <;> rfl

/-! ### Emptying collections -/

theorem purgeOne_closes (c : Collection) (e : Ev) :
    e.s.account.closes (purgeOne c e).1 (purgeOne c e).2.s.account := by
  refine ⟨rfl, ?_⟩
  change e.s.queues.settles (e.s.queues.purgeTallies c) (e.s.queues.clear c)
  cases c with
  | bq => exact Queues.settles_bq (fun _ => rfl) (fun _ => rfl) (by rw [List.append_nil])
  | cq => exact Queues.settles_cq (fun _ => rfl) (fun _ => rfl) (by rw [List.append_nil])
  | jq => exact Queues.settles_jq (fun _ => rfl) (fun _ => rfl) (by rw [List.append_nil])
  | tq => exact Queues.settles_books (fun _ => rfl) (fun _ => rfl) (by simp only [List.map_nil, sightedIn_nil]; omega)
  | pt =>
    exact Queues.settles_books (fun _ => rfl) (fun _ => rfl) (by
      simp only [show PressTrain.empty.records = [] from rfl, List.map_nil, sightedIn_nil]; omega)
  | aq => exact Queues.settles_books (fun _ => rfl) (fun _ => rfl) (by simp only [List.map_nil, sightedIn_nil]; omega)

theorem purgeAll_closes (cs : List Collection) (e : Ev) :
    e.s.account.closes (purgeAll cs e).1 (purgeAll cs e).2.s.account := by
  induction cs generalizing e with
  | nil => exact Account.closes_refl _
  | cons c cs ih => exact Account.closes.trans (purgeOne_closes c e) (ih _)

/-- Drain completion counts what it empties (R138). -/
theorem checkDrain_closes (e : Ev) : ∃ ys, e.s.account.closes ys (checkDrain e).s.account := by
  unfold checkDrain
  split
  · refine ⟨(purgeAll [.cq, .jq] e).1, ?_⟩
    rw [completeDrain, handTallies_account, enterConfig_account, logAlert_account]
    exact purgeAll_closes _ e
  · exact ⟨[], Account.closes_refl _⟩

/-- A cycle counts the tallies of what it has released, and a drain it completes counts its own (R75, R138). -/
theorem endCycle_keeps {a : Account} {before : Queues} {removed : Bool} {order : Message} {ys : List Tally} {e : Ev}
    (h : a.releases ys e.s.account) : a.keeps (endCycle before removed order ys e).s.account := by
  have handed : a.closes ys (handTallies ys (hand order (countTallies ys e))).s.account := by
    rw [handTallies_account, hand_account]
    exact h.counted
  rw [endCycle, computeLevels_account]
  split
  · obtain ⟨zs, hz⟩ := checkDrain_closes (handTallies ys (hand order (countTallies ys e)))
    exact (handed.trans hz).keeps
  · exact handed.keeps

end Sys2Proof.Machine
end

section
/-! SUPPORT. Sightings and the three cycles keep the accounting equation (R125): what joins is accepted, and what leaves is
tallied. -/

namespace Sys2Proof.Machine

/-! ### Sightings -/

/-- A sighting that joins its queue is accepted (R44, R45, R46). -/
theorem enqueue_keeps {before r : Queues} {i : ItemType} {e e' : Ev} (he : e'.s.account = e.s.account)
    (h : ∀ j, r.sighted j = e.s.queues.sighted j + if j = i then 1 else 0) :
    e.s.account.keeps (computeLevels before (enqueue r i e')).s.account := by
  have hr : (enqueue r i e').s.account = ⟨r, e.s.account.totals.sighted i⟩ := by
    rw [← he]
    rfl
  rw [computeLevels_account, hr]
  exact Account.keeps_sighted h

theorem sightOverflow_account (role : Byte) (serial : Serial) (key : TitleKey) (c : Collection) (e : Ev) :
    (sightOverflow role serial key c e).s.account = e.s.account := by
  rw [sightOverflow, raiseCause_s, State.caused_account, logAlert_account]

theorem sightBlock_keeps (p : List Byte) (e : Ev) : e.s.account.keeps (sightBlock p e).s.account := by
  rw [sightBlock]
  split
  · exact Account.keeps_of_eq (by split <;> rfl)
  · split
    · refine enqueue_keeps (blockAlert_account _ e) fun j => ?_
      cases j <;> simp [Queues.sighted, Queues.blockSerials]
      omega
    · exact Account.keeps_of_eq (sightOverflow_account ..)

theorem sightCase_keeps (p : List Byte) (e : Ev) : e.s.account.keeps (sightCase p e).s.account := by
  rw [sightCase]
  split
  · exact Account.keeps_of_eq (by split <;> rfl)
  · split
    · refine enqueue_keeps rfl fun j => ?_
      cases j <;> simp [Queues.sighted, Queues.blockSerials]
    · exact Account.keeps_of_eq (sightOverflow_account ..)

theorem sightJacket_keeps (p : List Byte) (e : Ev) : e.s.account.keeps (sightJacket p e).s.account := by
  rw [sightJacket]
  split
  · exact Account.keeps_of_eq (by split <;> rfl)
  · split
    · refine enqueue_keeps rfl fun j => ?_
      cases j <;> simp [Queues.sighted, Queues.blockSerials]
    · exact Account.keeps_of_eq (sightOverflow_account ..)

theorem sight_keeps (src : Node) (p : List Byte) (e : Ev) : e.s.account.keeps (sight src p e).s.account := by
  rw [sight]
  split
  · exact Account.keeps_of_eq rfl
  · split
    · exact Account.keeps_of_eq rfl
    · split
      · split_ifs
        · exact sightBlock_keeps p e
        · exact sightCase_keeps p e
        · exact sightJacket_keeps p e
      · exact Account.keeps_of_eq rfl

/-! ### What reconciliation and starving leave of a queue -/

/-- The head that a reconciliation has lost, if any. -/
def Presence.gone {α : Type} : Presence α → List α
  | .lost x => [x]
  | _ => []

theorem lostTally_eq_map {α : Type} (tally : α → Tally) (p : Presence α) : lostTally tally p = p.gone.map tally := by
  cases p <;> rfl

section Heads
variable {α : Type} {wait : α → Waiting} {setWait : Waiting → α → α} {serial : α → Serial}

/-- A reconciliation drops the head it has lost and no other entry (R64). -/
theorem reconcile_serials (hs : ∀ w x, serial (setWait w x) = serial x) (flag : Bool) (limit : Nat) (xs : List α) :
    xs.map serial
      = ((reconcile wait setWait flag limit xs).1.gone ++ (reconcile wait setWait flag limit xs).2).map serial := by
  cases xs with
  | nil => cases flag <;> rfl
  | cons x xs =>
    rw [reconcile]
    dsimp only
    split_ifs <;> simp [Presence.gone, hs]

/-- The available head is the head of the queue that a reconciliation leaves (R62). -/
theorem reconcile_head {flag : Bool} {limit : Nat} {xs : List α} {y : α}
    (h : (reconcile wait setWait flag limit xs).1.head = some y) :
    (reconcile wait setWait flag limit xs).2.head? = some y := by
  cases xs with
  | nil => cases flag <;> cases h
  | cons x xs =>
    rw [reconcile] at h ⊢
    dsimp only at h ⊢
    split_ifs at h ⊢
    · exact h
    · cases h
    · cases h

theorem starveHead_serials (hs : ∀ w x, serial (setWait w x) = serial x) (limit : Nat) (xs : List α) :
    xs.map serial = (starveHead wait setWait limit xs).map serial := by
  cases xs with
  | nil => rfl
  | cons x xs => simp [starveHead, hs]

theorem serials_of_head {xs : List α} {x : α} (h : xs.head? = some x) : xs.map serial = ([x] ++ xs.tail).map serial := by
  rw [List.singleton_append, List.cons_head?_tail h]

end Heads

/-- A phantom's tally closes no sighted item (R63, R109). -/
theorem Account.releases.phantoms {α : Type} {a b : Account} {ys : List Tally} (h : a.releases ys b) (item : ItemType)
    (stage : Stage) (p : Presence α) : a.releases (ys ++ phantomTallies item stage p) b := by
  refine h.trans ⟨rfl, Queues.settles_self fun i => ?_⟩
  unfold phantomTallies
  split
  · rw [closings_singleton]
    exact ite_self _
  · rfl

/-! ### Entries at the head of a queue -/

theorem BlockEntry.serial_setWait (w : Waiting) (b : BlockEntry) : (BlockEntry.setWait w b).serial = b.serial := rfl
theorem CaseEntry.serial_setWait (w : Waiting) (c : CaseEntry) : (CaseEntry.setWait w c).serial = c.serial := rfl
theorem JacketEntry.serial_setWait (w : Waiting) (j : JacketEntry) : (JacketEntry.setWait w j).serial = j.serial := rfl
theorem BookRecord.serial_setWait (w : Waiting) (r : BookRecord) : (BookRecord.setWait w r).serial = r.serial := rfl

section Moves
variable {q : Queues} {route : Route} {stage : Stage} {rs : List TallyReason}

/-- The head of BQ leaves for one tally of its own. -/
theorem Queues.settles_bqHead {b : BlockEntry} (h : q.bq.head? = some b) :
    q.settles [b.tally route stage rs] { q with bq := q.bq.tail } :=
  Queues.settles_bq (gone := [b]) (f := fun b => b.tally route stage rs) (fun _ => rfl) (fun _ => rfl) (serials_of_head h)

theorem Queues.settles_cqHead {c : CaseEntry} (h : q.cq.head? = some c) :
    q.settles [c.tally route stage rs] { q with cq := q.cq.tail } :=
  Queues.settles_cq (gone := [c]) (f := fun c => c.tally route stage rs) (fun _ => rfl) (fun _ => rfl) (serials_of_head h)

theorem Queues.settles_jqHead {j : JacketEntry} (h : q.jq.head? = some j) :
    q.settles [j.tally route stage rs] { q with jq := q.jq.tail } :=
  Queues.settles_jq (gone := [j]) (f := fun j => j.tally route stage rs) (fun _ => rfl) (fun _ => rfl) (serials_of_head h)

/-- Entries that change without their serials settle nothing. -/
theorem Queues.settles_bqKept {xs : List BlockEntry} (h : q.bq.map BlockEntry.serial = xs.map BlockEntry.serial) :
    q.settles [] { q with bq := xs } :=
  Queues.settles_bq (gone := []) (f := fun b => b.tally .lost .queue []) (fun _ => rfl) (fun _ => rfl) h

theorem Queues.settles_cqKept {xs : List CaseEntry} (h : q.cq.map CaseEntry.serial = xs.map CaseEntry.serial) :
    q.settles [] { q with cq := xs } :=
  Queues.settles_cq (gone := []) (f := fun c => c.tally .lost .queue []) (fun _ => rfl) (fun _ => rfl) h

theorem Queues.settles_jqKept {xs : List JacketEntry} (h : q.jq.map JacketEntry.serial = xs.map JacketEntry.serial) :
    q.settles [] { q with jq := xs } :=
  Queues.settles_jq (gone := []) (f := fun j => j.tally .lost .queue []) (fun _ => rfl) (fun _ => rfl) h

/-- The head of BQ goes on as a book record of the same serial in TQ (R71). -/
theorem Queues.settles_bqToTq {b : BlockEntry} {r : BookRecord} (h : q.bq.head? = some b) (hr : r.serial = b.serial) :
    q.settles [] { q with bq := q.bq.tail, tq := q.tq ++ [r] } := by
  rintro ⟨hb, hc, hj⟩
  have hs := serials_of_head (serial := BlockEntry.serial) h
  rw [List.map_append] at hs
  refine ⟨⟨fun h0 => hb (hs ▸ List.mem_append_right _ h0), hc, hj⟩, fun i => ?_⟩
  cases i with
  | block =>
    simp only [Queues.serials, hs, List.map_append, List.map_cons, List.map_nil, hr, sightedIn_append, closings_nil]
    omega
  | caseItem => rfl
  | jacket => rfl

end Moves

/-! ### The casing cycle -/

theorem reconcileBq_releases (flag : Bool) (e : Ev) :
    e.s.account.releases (lostTally (fun b => b.tally .lost .queue b.reasons) (reconcileBq flag e).1)
      (reconcileBq flag e).2.s.account := by
  rw [reconcileBq, lostTally_eq_map, presenceAlert_account]
  exact ⟨rfl, Queues.settles_bq (fun _ => rfl) (fun _ => rfl) (reconcile_serials BlockEntry.serial_setWait ..)⟩

theorem reconcileCq_releases (flag : Bool) (e : Ev) :
    e.s.account.releases (lostTally (fun c => c.tally .lost .queue []) (reconcileCq flag e).1)
      (reconcileCq flag e).2.s.account := by
  rw [reconcileCq, lostTally_eq_map, presenceAlert_account]
  exact ⟨rfl, Queues.settles_cq (fun _ => rfl) (fun _ => rfl) (reconcile_serials CaseEntry.serial_setWait ..)⟩

/-- The available block is the head of BQ. -/
theorem reconcileBq_head {flag : Bool} {e : Ev} {b : BlockEntry} (h : (reconcileBq flag e).1.head = some b) :
    (reconcileBq flag e).2.s.queues.bq.head? = some b :=
  (congrArg (fun a : Account => a.queues.bq.head?) (presenceAlert_account ..)).trans (reconcile_head h)

theorem reconcileCq_head {flag : Bool} {e : Ev} {c : CaseEntry} (h : (reconcileCq flag e).1.head = some c) :
    (reconcileCq flag e).2.s.queues.cq.head? = some c :=
  (congrArg (fun a : Account => a.queues.cq.head?) (presenceAlert_account ..)).trans (reconcile_head h)

theorem reconcileCq_bq (flag : Bool) (e : Ev) : (reconcileCq flag e).2.s.queues.bq = e.s.queues.bq :=
  congrArg (fun a : Account => a.queues.bq) (presenceAlert_account ..)

/-- The entries a decision names are the heads of their queues. -/
def CasingCase.ofHeads (q : Queues) : CasingCase → Prop
  | .flagged b | .noCase b | .blockWaits b => q.bq.head? = some b
  | .wrongCase c | .caseWaits c => q.cq.head? = some c
  | .misfit b c | .misfitLimit b c | .matched b c _ => q.bq.head? = some b ∧ q.cq.head? = some c
  | .neither => True

theorem casingCase_ofHeads {q : Queues} {b : Option BlockEntry} {c : Option CaseEntry} (l : Limits)
    (behind : List CaseEntry) (hb : ∀ x, b = some x → q.bq.head? = some x) (hc : ∀ x, c = some x → q.cq.head? = some x) :
    (casingCase l behind b c).ofHeads q := by
  cases b with
  | none =>
    cases c with
    | none => trivial
    | some c => exact hc c rfl
  | some b =>
    have hb := hb b rfl
    cases c with
    | none => exact hb
    | some c =>
      have hc := hc c rfl
      rw [casingCase]
      split
      · exact hb
      · split_ifs
        exacts [hb, hc, hb, ⟨hb, hc⟩, ⟨hb, hc⟩, ⟨hb, hc⟩]

/-- A matched block goes on as a book record: it joins TQ, or at a full TQ is lost and tallied (R71, R72). -/
theorem joinTransfer_releases {a : Account} {b : BlockEntry} {d : TitleData} {clamped : Bool} {e : Ev}
    (h : a.queues.bq.head? = some b) (he : e.s.account = ⟨{ a.queues with bq := a.queues.bq.tail }, a.totals⟩) :
    a.releases (joinTransfer (bookOf b d clamped) e).1 (joinTransfer (bookOf b d clamped) e).2.s.account := by
  unfold joinTransfer
  split
  · obtain ⟨hq, ht⟩ := Account.mk.inj he
    refine ⟨ht, ?_⟩
    simp only [State.account, hq]
    exact Queues.settles_bqToTq h rfl
  · rw [raiseCause_s, State.caused_account, logAlert_account, he]
    exact ⟨rfl, Queues.settles_bq (gone := [b]) (f := fun b => (bookOf b d clamped).tally .lost .casing []) (fun _ => rfl)
      (fun _ => rfl) (serials_of_head h)⟩

theorem casingMatch_releases {b : BlockEntry} {c : CaseEntry} {e : Ev} (hb : e.s.queues.bq.head? = some b)
    (hc : e.s.queues.cq.head? = some c) (d : TitleData) :
    e.s.account.releases (casingMatch b c d e).1.tallies (casingMatch b c d e).2.s.account := by
  have case_gone : e.s.account.releases [c.tally .good .casing []]
      ⟨{ e.s.queues with cq := e.s.queues.cq.tail }, e.s.totals⟩ := ⟨rfl, Queues.settles_cqHead hc⟩
  refine case_gone.trans (joinTransfer_releases hb ?_)
  rw [doseAlert_account, doseAlert_account]
  rfl

theorem casingApply_releases (l : Limits) {d : CasingCase} {e : Ev} (h : d.ofHeads e.s.queues) :
    e.s.account.releases (casingApply l d e).1.tallies (casingApply l d e).2.s.account := by
  cases d with
  | flagged b => exact ⟨rfl, Queues.settles_bqHead h⟩
  | wrongCase c => exact ⟨rfl, Queues.settles_cqHead h⟩
  | noCase b => exact ⟨rfl, Queues.settles_bqHead h⟩
  | misfit b c =>
    obtain ⟨hb, hc⟩ := h
    have kept : e.s.queues.settles [] { e.s.queues with bq := { b with fitFail := b.fitFail + 1 } :: e.s.queues.bq.tail } :=
      Queues.settles_bqKept (serials_of_head (x := b) hb)
    exact ⟨rfl, kept.trans (Queues.settles_cqHead hc)⟩
  | misfitLimit b c =>
    obtain ⟨hb, hc⟩ := h
    exact ⟨rfl, Queues.settles.trans (Queues.settles_bqHead hb) (Queues.settles_cqHead hc)⟩
  | matched b c t => exact casingMatch_releases h.1 h.2 t
  | blockWaits b =>
    rw [casingApply, starveAlert_account]
    exact ⟨rfl, Queues.settles_bqKept (starveHead_serials BlockEntry.serial_setWait ..)⟩
  | caseWaits c =>
    rw [casingApply, starveAlert_account]
    exact ⟨rfl, Queues.settles_cqKept (starveHead_serials CaseEntry.serial_setWait ..)⟩
  | neither => exact Account.releases_refl _

/-- A casing cycle tallies every block and case that it removes, but for the block that goes on as a book (R70 to R73). -/
theorem casingCycle_keeps (n : Word) (block caseFlag : Bool) (e : Ev) :
    e.s.account.keeps (casingCycle n block caseFlag e).s.account := by
  have hstart : (continuity .casing n (advanceStamp e)).s.account = e.s.account := by
    rw [continuity_account, advanceStamp_account]
  have lost := (reconcileBq_releases block (continuity .casing n (advanceStamp e))).trans (reconcileCq_releases caseFlag _)
  rw [hstart] at lost
  refine endCycle_keeps (((lost.phantoms .block .casing _).phantoms .caseItem .casing _).trans (casingApply_releases _ ?_))
  refine casingCase_ofHeads _ _ (fun b hb => ?_) fun c hc => reconcileCq_head hc
  rw [reconcileCq_bq]
  exact reconcileBq_head hb

end Sys2Proof.Machine
end

section
/-! SUPPORT. The press index and the jacket cycle keep the accounting equation (R125): a book record leaves PT for AQ or for
a tally, and AQ for a tally. -/

namespace Sys2Proof.Machine

/-! ### Book records that move -/

theorem Account.releases.quietly {a b c : Account} {ys : List Tally} (h : a.releases ys b) (k : b.releases [] c) :
    a.releases ys c := by
  rw [← List.append_nil ys]
  exact h.trans k

/-- How many sighted books a press position holds: one or none. -/
def sightedAt (p : Option BookRecord) : Nat := sightedIn (p.toList.map BookRecord.serial)

theorem PressTrain.sightedIn_records (t : PressTrain) :
    sightedIn (t.records.map BookRecord.serial)
      = sightedAt t.p1 + sightedAt t.p2 + sightedAt t.p3 + sightedAt t.p4 + sightedAt t.p5 + sightedAt t.p6 := by
  simp only [PressTrain.records, PressTrain.positions, List.filterMap_eq_flatMap_toList, List.flatMap_cons,
    List.flatMap_nil, id, List.map_append, sightedIn_append, List.map_nil, sightedIn_nil, Nat.add_zero, Nat.add_assoc,
    sightedAt]

/-- The books of a press train are those of positions 1 to 5 and that of position 6. -/
theorem PressTrain.sightedIn_outfed (t : PressTrain) :
    sightedIn (t.records.map BookRecord.serial)
      = sightedIn ((PressTrain.mk t.p1 t.p2 t.p3 t.p4 t.p5 none).records.map BookRecord.serial) + sightedAt t.p6 := by
  rw [PressTrain.sightedIn_records, PressTrain.sightedIn_records]
  rfl

/-- A train that moves on with position 6 empty holds its books and what entered. -/
theorem PressTrain.sightedIn_shifted {t : PressTrain} (h : t.p6 = none) (x : Option BookRecord) :
    sightedIn ((PressTrain.mk x t.p1 t.p2 t.p3 t.p4 t.p5).records.map BookRecord.serial)
      = sightedAt x + sightedIn (t.records.map BookRecord.serial) := by
  have empty6 : sightedAt t.p6 = 0 := by rw [h]; rfl
  rw [PressTrain.sightedIn_records, PressTrain.sightedIn_records, empty6]
  dsimp only
  omega

section Moves
variable {q : Queues} {route : Route} {stage : Stage}

theorem Queues.settles_tq {gone xs : List BookRecord} {f : BookRecord → Tally} (hi : ∀ r, (f r).item = .block)
    (hs : ∀ r, (f r).serial = r.serial) (h : q.tq.map BookRecord.serial = (gone ++ xs).map BookRecord.serial) :
    q.settles (gone.map f) { q with tq := xs } := by
  refine Queues.settles_books hi hs ?_
  rw [h, List.map_append, sightedIn_append]
  omega

theorem Queues.settles_aq {gone xs : List BookRecord} {f : BookRecord → Tally} (hi : ∀ r, (f r).item = .block)
    (hs : ∀ r, (f r).serial = r.serial) (h : q.aq.map BookRecord.serial = (gone ++ xs).map BookRecord.serial) :
    q.settles (gone.map f) { q with aq := xs } := by
  refine Queues.settles_books hi hs ?_
  rw [h, List.map_append, sightedIn_append]
  omega

/-- The head of AQ leaves for one tally of its own. -/
theorem Queues.settles_aqHead {r : BookRecord} {more : List TallyReason} (h : q.aq.head? = some r) :
    q.settles [r.tally route stage more] { q with aq := q.aq.tail } :=
  Queues.settles_aq (gone := [r]) (f := fun r => r.tally route stage more) (fun _ => rfl) (fun _ => rfl) (serials_of_head h)

theorem Queues.settles_aqKept {xs : List BookRecord} (h : q.aq.map BookRecord.serial = xs.map BookRecord.serial) :
    q.settles [] { q with aq := xs } :=
  Queues.settles_aq (gone := []) (f := BookRecord.lostTally) (fun _ => rfl) (fun _ => rfl) h

/-- Books that move between TQ, PT and AQ with none leaving settle nothing. -/
theorem Queues.settles_booksKept {tq aq : List BookRecord} {pt : PressTrain}
    (h : sightedIn (q.tq.map BookRecord.serial) + sightedIn (q.pt.records.map BookRecord.serial)
        + sightedIn (q.aq.map BookRecord.serial)
      = sightedIn (tq.map BookRecord.serial) + sightedIn (pt.records.map BookRecord.serial)
        + sightedIn (aq.map BookRecord.serial)) :
    q.settles [] { q with tq := tq, pt := pt, aq := aq } :=
  Queues.settles_books (gone := []) (f := BookRecord.lostTally) (fun _ => rfl) (fun _ => rfl) h

/-- The record at position 6 goes on to AQ (R83). -/
theorem Queues.settles_outfed {r : BookRecord} (h : q.pt.p6 = some r) (w : Waiting) :
    q.settles [] { q with pt := { q.pt with p6 := none }, aq := q.aq ++ [r.setWait w] } := by
  have hr : sightedIn ([r.setWait w].map BookRecord.serial) = sightedAt q.pt.p6 := by rw [h]; rfl
  refine Queues.settles_booksKept ?_
  rw [q.pt.sightedIn_outfed, List.map_append, sightedIn_append, hr]
  dsimp only
  omega

/-- The record at position 6 leaves for a tally of its own (R85). -/
theorem Queues.settles_p6Head {r : BookRecord} {more : List TallyReason} (h : q.pt.p6 = some r) :
    q.settles [r.tally route stage more] { q with pt := { q.pt with p6 := none } } := by
  have hr : sightedIn ([r].map BookRecord.serial) = sightedAt q.pt.p6 := by rw [h]; rfl
  refine Queues.settles_books (gone := [r]) (f := fun r => r.tally route stage more) (fun _ => rfl) (fun _ => rfl) ?_
  rw [q.pt.sightedIn_outfed, hr]
  dsimp only
  omega

end Moves

/-! ### The press index -/

theorem reconcileTq_releases (flag : Bool) (e : Ev) :
    e.s.account.releases (lostTally BookRecord.lostTally (reconcileTq flag e).1) (reconcileTq flag e).2.s.account := by
  rw [reconcileTq, lostTally_eq_map, presenceAlert_account]
  exact ⟨rfl, Queues.settles_tq (fun _ => rfl) (fun _ => rfl) (reconcile_serials BookRecord.serial_setWait ..)⟩

theorem reconcileTq_head {flag : Bool} {e : Ev} {r : BookRecord} (h : (reconcileTq flag e).1.head = some r) :
    (reconcileTq flag e).2.s.queues.tq.head? = some r :=
  (congrArg (fun a : Account => a.queues.tq.head?) (presenceAlert_account ..)).trans (reconcile_head h)

/-- The outfeed leaves position 6 empty and TQ as it is. -/
theorem outfeed_leaves (e : Ev) :
    (outfeed e).2.s.queues.pt.p6 = none ∧ (outfeed e).2.s.queues.tq = e.s.queues.tq := by
  unfold outfeed
  split
  case h_1 h6 => exact ⟨h6, rfl⟩
  case h_2 r h6 =>
    dsimp only
    split
    · exact ⟨rfl, rfl⟩
    · rw [raiseCause_s, State.caused_queues]
      exact ⟨rfl, rfl⟩

/-- The record at position 6 joins AQ, or at a full AQ is lost and tallied (R83, R85). -/
theorem outfeed_releases (e : Ev) : e.s.account.releases (outfeed e).1 (outfeed e).2.s.account := by
  unfold outfeed
  split
  · exact Account.releases_refl _
  case h_2 r h6 =>
    dsimp only
    split
    · exact ⟨rfl, Queues.settles_outfed h6 _⟩
    · rw [raiseCause_s, State.caused_account, logAlert_account]
      exact ⟨rfl, Queues.settles_p6Head h6⟩

/-- What enters position 1 is the head of TQ, which leaves TQ, or a phantom or nothing (R84, R86). -/
theorem sightedIn_infeed {p : Presence BookRecord} {tq : List BookRecord} (h : ∀ r, p.head = some r → tq.head? = some r) :
    sightedIn (tq.map BookRecord.serial)
      = sightedAt (infeed p) + sightedIn ((if p.head.isSome then tq.tail else tq).map BookRecord.serial) := by
  cases p with
  | available r =>
    rw [serials_of_head (h r rfl), List.map_append, sightedIn_append]
    rfl
  | _ => exact (Nat.zero_add _).symm

/-- With position 6 empty the shift loses no book (R84). -/
theorem shift_releases {p : Presence BookRecord} {e : Ev} (h6 : e.s.queues.pt.p6 = none)
    (hp : ∀ r, p.head = some r → e.s.queues.tq.head? = some r) : e.s.account.releases [] (shift p e).s.account := by
  have moved : (shift p e).s.account = ⟨{ e.s.queues with
      tq := if p.head.isSome then e.s.queues.tq.tail else e.s.queues.tq
      pt := ⟨infeed p, e.s.queues.pt.p1, e.s.queues.pt.p2, e.s.queues.pt.p3, e.s.queues.pt.p4, e.s.queues.pt.p5⟩ },
      e.s.totals⟩ := by
    rw [shift]
    split <;> rfl
  rw [moved]
  refine ⟨rfl, Queues.settles_booksKept (q := e.s.queues) ?_⟩
  rw [PressTrain.sightedIn_shifted h6, sightedIn_infeed hp]
  omega

theorem sightedAt_markPosition (s : State) (entry : Profile → ProfileEntry) (b : IronBank) (p : Option BookRecord) :
    sightedAt (markPosition s entry b p) = sightedAt p := by
  cases p with
  | none => rfl
  | some r =>
    rw [markPosition]
    split <;> rfl

theorem markSuspects_releases (e : Ev) : e.s.account.releases [] (markSuspects e).s.account := by
  refine ⟨rfl, Queues.settles_booksKept ?_⟩
  simp only [PressTrain.sightedIn_records, sightedAt_markPosition]
  rfl

/-- A press index tallies every book record that it removes (R82 to R85). -/
theorem pressIndex_keeps (n : Word) (flag : Bool) (e : Ev) : e.s.account.keeps (pressIndex n flag e).s.account := by
  have lost := (reconcileTq_releases flag (continuity .press n e)).trans (outfeed_releases _)
  rw [continuity_account] at lost
  obtain ⟨h6, htq⟩ := outfeed_leaves (reconcileTq flag (continuity .press n e)).2
  have shifted := lost.quietly (shift_releases h6 fun r hr => by rw [htq]; exact reconcileTq_head hr)
  refine endCycle_keeps ?_
  rw [advanceStale_account]
  exact shifted.quietly (markSuspects_releases _)

/-! ### The jacket cycle -/

theorem reconcileAq_releases (flag : Bool) (e : Ev) :
    e.s.account.releases (lostTally BookRecord.lostTally (reconcileAq flag e).1) (reconcileAq flag e).2.s.account := by
  rw [reconcileAq, lostTally_eq_map, presenceAlert_account]
  exact ⟨rfl, Queues.settles_aq (fun _ => rfl) (fun _ => rfl) (reconcile_serials BookRecord.serial_setWait ..)⟩

theorem reconcileJq_releases (flag : Bool) (e : Ev) :
    e.s.account.releases (lostTally (fun j => j.tally .lost .queue []) (reconcileJq flag e).1)
      (reconcileJq flag e).2.s.account := by
  rw [reconcileJq, lostTally_eq_map, presenceAlert_account]
  exact ⟨rfl, Queues.settles_jq (fun _ => rfl) (fun _ => rfl) (reconcile_serials JacketEntry.serial_setWait ..)⟩

theorem reconcileAq_head {flag : Bool} {e : Ev} {r : BookRecord} (h : (reconcileAq flag e).1.head = some r) :
    (reconcileAq flag e).2.s.queues.aq.head? = some r :=
  (congrArg (fun a : Account => a.queues.aq.head?) (presenceAlert_account ..)).trans (reconcile_head h)

theorem reconcileJq_head {flag : Bool} {e : Ev} {j : JacketEntry} (h : (reconcileJq flag e).1.head = some j) :
    (reconcileJq flag e).2.s.queues.jq.head? = some j :=
  (congrArg (fun a : Account => a.queues.jq.head?) (presenceAlert_account ..)).trans (reconcile_head h)

theorem reconcileJq_aq (flag : Bool) (e : Ev) : (reconcileJq flag e).2.s.queues.aq = e.s.queues.aq :=
  congrArg (fun a : Account => a.queues.aq) (presenceAlert_account ..)

/-- The entries a decision names are the heads of their queues. -/
def JacketCase.ofHeads (q : Queues) : JacketCase → Prop
  | .unjacketed k | .noJacket k | .bookWaits k => q.aq.head? = some k
  | .wrongJacket j | .jacketWaits j => q.jq.head? = some j
  | .apply k j => q.aq.head? = some k ∧ q.jq.head? = some j
  | .neither => True

theorem jacketCase_ofHeads {q : Queues} {k : Option BookRecord} {j : Option JacketEntry} (l : Limits)
    (behind : List JacketEntry) (hk : ∀ x, k = some x → q.aq.head? = some x) (hj : ∀ x, j = some x → q.jq.head? = some x) :
    (jacketCase l behind k j).ofHeads q := by
  cases k with
  | none =>
    cases j with
    | none => trivial
    | some j => exact hj j rfl
  | some k =>
    have hk := hk k rfl
    cases j with
    | none =>
      rw [jacketCase]
      split <;> exact hk
    | some j =>
      have hj := hj j rfl
      rw [jacketCase]
      split_ifs
      exacts [hk, hj, hk, ⟨hk, hj⟩]

/-- A passed book leaves AQ; its routing asks and changes the Title Table alone (R112, R116). -/
theorem passBook_account (k : BookRecord) (without : Bool) (action : JacketAction) (more : List Tally) (e : Ev) :
    (passBook k without action more e).2.s.account = ⟨{ e.s.queues with aq := e.s.queues.aq.tail }, e.s.totals⟩ := by
  simp only [passBook, routeBook]
  split_ifs <;> rfl

theorem jacketApply_releases (l : Limits) {d : JacketCase} {e : Ev} (h : d.ofHeads e.s.queues) :
    e.s.account.releases (jacketApply l d e).1.tallies (jacketApply l d e).2.s.account := by
  cases d with
  | unjacketed k =>
    rw [jacketApply, passBook_account]
    exact ⟨rfl, Queues.settles_aqHead h⟩
  | wrongJacket j => exact ⟨rfl, Queues.settles_jqHead h⟩
  | noJacket k =>
    rw [jacketApply, passBook_account]
    exact ⟨rfl, Queues.settles_aqHead h⟩
  | apply k j =>
    obtain ⟨hk, hj⟩ := h
    rw [jacketApply, passBook_account]
    exact ⟨rfl, Queues.settles.trans (Queues.settles_aqHead hk) (Queues.settles_jqHead hj)⟩
  | bookWaits k =>
    rw [jacketApply, starveAlert_account]
    exact ⟨rfl, Queues.settles_aqKept (starveHead_serials BookRecord.serial_setWait ..)⟩
  | jacketWaits j =>
    rw [jacketApply, starveAlert_account]
    exact ⟨rfl, Queues.settles_jqKept (starveHead_serials JacketEntry.serial_setWait ..)⟩
  | neither => exact Account.releases_refl _

/-- A jacket cycle tallies every book and jacket that it removes (R108 to R117). -/
theorem jacketCycle_keeps (n : Word) (book jacketFlag : Bool) (e : Ev) :
    e.s.account.keeps (jacketCycle n book jacketFlag e).s.account := by
  have lost := (reconcileAq_releases book (continuity .jacketer n e)).trans (reconcileJq_releases jacketFlag _)
  rw [continuity_account] at lost
  refine endCycle_keeps
    (((lost.phantoms .block .jacketing _).phantoms .jacket .jacketing _).trans (jacketApply_releases _ ?_))
  refine jacketCase_ofHeads _ _ (fun k hk => ?_) fun j hj => reconcileJq_head hj
  rw [reconcileJq_aq]
  exact reconcileAq_head hk

theorem cycle_keeps (src : Node) (p : List Byte) (e : Ev) : e.s.account.keeps (cycle src p e).s.account := by
  rw [cycle]
  split
  · exact Account.keeps_of_eq rfl
  · split
    · exact Account.keeps_of_eq rfl
    case h_2 m _ =>
      split
      · cases m with
        | casing => exact casingCycle_keeps _ _ _ e
        | press => exact pressIndex_keeps _ _ e
        | jacketer => exact jacketCycle_keeps _ _ _ e
      · exact Account.keeps_of_eq rfl

end Sys2Proof.Machine
end

section
/-! SUPPORT. The accounting equation over every command (R125): requests, reception, power-on, and the two resets. -/

namespace Sys2Proof.Machine

/-! ### Requests -/

theorem ctrlStart_account (tag : Byte) (e : Ev) : (ctrlStart tag e).s.account = e.s.account := by
  unfold ctrlStart
  split
  · exact answer_account ..
  · split
    · exact answer_account ..
    · rw [answer_account, formComputed_account, startRun_account]

theorem ctrlHalt_account (tag : Byte) (e : Ev) : (ctrlHalt tag e).s.account = e.s.account := by
  unfold ctrlHalt
  split
  · rw [answer_account, raiseCause_s, State.caused_account]
  · exact answer_account ..

theorem ctrlResume_account (tag : Byte) (e : Ev) : (ctrlResume tag e).s.account = e.s.account := by
  unfold ctrlResume
  split
  · exact answer_account ..
  · split
    · exact answer_account ..
    · rw [answer_account, formComputed_account, enterRun_account]

/-- The check at the acceptance of DRAIN counts what it empties (R137, R138). -/
theorem ctrlDrain_keeps (tag : Byte) (e : Ev) : e.s.account.keeps (ctrlDrain tag e).s.account := by
  have checked (before : Queues) {x : Ev} (hx : x.s.account = e.s.account) :
      e.s.account.keeps (computeLevels before (checkDrain (answer tag .ok .none x))).s.account := by
    obtain ⟨ys, hys⟩ := checkDrain_closes (answer tag .ok .none x)
    rw [answer_account, hx] at hys
    rw [computeLevels_account]
    exact hys.keeps
  unfold ctrlDrain
  split
  · exact Account.keeps_of_eq (answer_account ..)
  · exact Account.keeps_of_eq (answer_account ..)
  · exact checked _ rfl
  · split
    · exact Account.keeps_of_eq (answer_account ..)
    · exact checked _ rfl

theorem ctrlAbort_keeps (tag : Byte) (e : Ev) : e.s.account.keeps (ctrlAbort tag e).s.account := by
  rw [ctrlAbort]
  split
  · exact Account.keeps_of_eq (answer_account ..)
  · rw [computeLevels_account, handTallies_account, answer_account, enterConfig_account, logAlert_account]
    exact (purgeAll_closes _ e).keeps

theorem ctrlPurge_keeps (tag arg : Byte) (e : Ev) : e.s.account.keeps (ctrlPurge tag arg e).s.account := by
  rw [ctrlPurge]
  split
  · exact Account.keeps_of_eq (answer_account ..)
  case h_2 c _ =>
    split
    · exact Account.keeps_of_eq (answer_account ..)
    · rw [computeLevels_account, handTallies_account, answer_account, logAlert_account]
      exact (purgeOne_closes c e).keeps

theorem ctrlArm_account (tag : Byte) (e : Ev) : (ctrlArm tag e).s.account = e.s.account := by
  unfold ctrlArm
  split <;> exact answer_account ..

theorem ctrlDisarm_account (tag : Byte) (e : Ev) : (ctrlDisarm tag e).s.account = e.s.account := answer_account ..

theorem ctrlCopy_account (tag : Byte) (e : Ev) : (ctrlCopy tag e).s.account = e.s.account := by
  unfold ctrlCopy
  split
  · rw [answer_account]
    unfold TitleTable.setStandby
    rfl
  · exact answer_account ..

theorem ctrlStore_account (tag : Byte) (e : Ev) : (ctrlStore tag e).s.account = e.s.account := by
  unfold ctrlStore
  split_ifs <;> exact answer_account ..

theorem ctrlProof_account (tag : Byte) (e : Ev) : (ctrlProof tag e).s.account = e.s.account := by
  unfold ctrlProof
  split_ifs
  · exact answer_account ..
  · exact answer_account ..
  · exact answer_account ..
  · rw [handAll_account, answer_account]
    rfl

/-- A line reset empties every collection and clears every total (R142, R143). -/
theorem ctrlReset_account (tag : Byte) (e : Ev) : (ctrlReset tag e).s.account = ⟨Queues.empty, Totals.zero⟩ := rfl

theorem Account.balanced_empty : Account.balanced ⟨Queues.empty, Totals.zero⟩ := fun i => by cases i <;> rfl

/-- CLEAR makes every total 0 and leaves what is held (R141). -/
theorem ctrlClear_account (tag : Byte) (e : Ev) : (ctrlClear tag e).s.account = ⟨e.s.queues, Totals.zero⟩ := by
  rw [ctrlClear, answer_account]
  rfl

theorem ctrlRequest_keeps {r : Request} (h : r ≠ .clear) (tag arg : Byte) (e : Ev) :
    e.s.account.keeps (ctrlRequest r tag arg e).s.account := by
  cases r with
  | start => exact Account.keeps_of_eq (ctrlStart_account tag e)
  | halt => exact Account.keeps_of_eq (ctrlHalt_account tag e)
  | resume => exact Account.keeps_of_eq (ctrlResume_account tag e)
  | drain => exact ctrlDrain_keeps tag e
  | abort => exact ctrlAbort_keeps tag e
  | purge => exact ctrlPurge_keeps tag arg e
  | clear => exact absurd rfl h
  | reset => exact fun _ _ _ => Account.balanced_empty
  | arm => exact Account.keeps_of_eq (ctrlArm_account tag e)
  | disarm => exact Account.keeps_of_eq (ctrlDisarm_account tag e)
  | copy => exact Account.keeps_of_eq (ctrlCopy_account tag e)
  | store => exact Account.keeps_of_eq (ctrlStore_account tag e)
  | proof => exact Account.keeps_of_eq (ctrlProof_account tag e)

theorem Request.code_of_ofCode {b : Byte} {r : Request} (h : Request.ofCode b = some r) : r.code = b := by
  simpa using List.find?_some h

theorem ctrl_keeps {p : List Byte} (h : byteAt p 0 ≠ Request.clear.code) (tag : Byte) (e : Ev) :
    e.s.account.keeps (ctrl tag p e).s.account := by
  unfold ctrl
  split
  · exact Account.keeps_of_eq (answer_account ..)
  · split
    · exact Account.keeps_of_eq (answer_account ..)
    case h_2 r hr => exact ctrlRequest_keeps (fun hc => h (hc ▸ (Request.code_of_ofCode hr).symm)) _ _ e

/-! ### Reception -/

/-- The message is no CTRL CLEAR. -/
def notClear (m : Message) : Prop := m.kind = 0x20 → byteAt m.payload 0 ≠ 7

theorem fromMaster_keeps {f : Ev → Ev} {e : Ev} (src : Node) (h : e.s.account.keeps (f e).s.account) :
    e.s.account.keeps (fromMaster src f e).s.account := by
  unfold fromMaster
  split
  · exact h
  · exact Account.keeps_of_eq rfl

theorem Kind.code_of_ofCode {b : Byte} {k : Kind} (h : Kind.ofCode b = some k) : k.code = b := by
  simpa using List.find?_some h

theorem take_keeps {m : Message} (h : notClear m) (e : Ev) : e.s.account.keeps (take m e).s.account := by
  rw [take]
  cases hk : Kind.ofCode m.kind with
  | none => exact fromMaster_keeps _ (Account.keeps_of_eq (answer_account ..))
  | some k =>
    cases k with
    | sight => exact sight_keeps _ _ e
    | cycle => exact cycle_keeps _ _ e
    | sense => exact Account.keeps_of_eq (sense_account ..)
    | mark => exact Account.keeps_of_eq (mark_account ..)
    | ctrl => exact fromMaster_keeps _ (ctrl_keeps (h (Kind.code_of_ofCode hk).symm) _ e)
    | write => exact fromMaster_keeps _ (Account.keeps_of_eq (write_account ..))
    | read => exact fromMaster_keeps _ (Account.keeps_of_eq (read_account ..))
    | _ => exact Account.keeps_of_eq rfl

theorem dispose_keeps {m : Message} (h : notClear m) (e : Ev) : e.s.account.keeps (dispose m e).s.account := by
  unfold dispose
  split_ifs
  · exact Account.keeps_of_eq (stripped_account m e)
  · exact take_keeps h e
  · have taken := take_keeps h (forward m e)
    rwa [forward_account] at taken
  · exact Account.keeps_of_eq (forward_account m e)

theorem receive_keeps {m : Message} (h : notClear m) (s : State) : s.account.keeps (receive m s).account := by
  unfold receive event
  split
  · rw [finish_account]
    split
    · have disposed := dispose_keeps h (comeUp (setRing { (Ev.start s).s.ring with consecBad := 0 } (Ev.start s)))
      rwa [comeUp_account] at disposed
    · exact Account.keeps_of_eq (badReceived_account _)
  · exact Account.keeps_of_eq rfl

/-! ### Power-on and the other commands -/

theorem powerOnReset_account (n : Nat) (s : State) : (powerOnReset n s).account = ⟨Queues.empty, Totals.zero⟩ := rfl

theorem judgedAlerts_account (n : Nat) (js : List Judged) (e : Ev) : (judgedAlerts n js e).s.account = e.s.account := by
  induction js generalizing n e with
  | nil => rfl
  | cons j js ih =>
    rw [judgedAlerts, ih]
    cases j <;> rfl

theorem powerOnLoad_account (cells : CellReport) (s : State) : (powerOnLoad cells s).account = s.account := by
  unfold powerOnLoad
  split
  · rw [finish_account, judgedAlerts_account]
    rfl
  · rfl

theorem loadComplete_account (s : State) : (loadComplete s).account = s.account := by
  unfold loadComplete
  split
  · rw [finish_account]
    rfl
  · rfl

theorem receiveBytes_account {bytes : List Byte} (h : decode bytes = none) (s : State) :
    (receiveBytes bytes s).account = s.account := by
  unfold receiveBytes
  rw [h]
  exact event_account (badReceived_account _)

/-- A command that carries no message leaves the account alone, unless it is power-on reset. -/
theorem exec_uncarried {c : Instr} {s t : State} (hc : carried c = none) (hn : ∀ n, c ≠ .powerOnReset n)
    (h : exec c s = .next t) : t.account = s.account := by
  cases c with
  | powerOnReset n => exact absurd rfl (hn n)
  | powerOnLoad cells => exact Host.Outcome.next.inj h ▸ powerOnLoad_account cells s
  | loadComplete => exact Host.Outcome.next.inj h ▸ loadComplete_account s
  | carrierFound => exact Host.Outcome.next.inj h ▸ event_account (setRing_account ..)
  | carrierLost => exact Host.Outcome.next.inj h ▸ event_account (carrierGone_account _)
  | badMessage bytes => exact Host.Outcome.next.inj h ▸ receiveBytes_account hc s
  | consecutiveBadLimit bytes => exact Host.Outcome.next.inj h ▸ receiveBytes_account hc s
  | storeDone => exact Host.Outcome.next.inj h ▸ event_account (storeDone_account _)
  | proofTimeout => exact Host.Outcome.next.inj h ▸ event_account (proofExpired_account _)
  | transmitComplete => exact Host.Outcome.next.inj h ▸ event_account (transmitted_account _)
  | _ => cases hc

theorem State.withPinsOf_account (c : Instr) (s : State) : (s.withPinsOf c).account = s.account := by
  cases c <;> rfl

/-- Every command but a CTRL CLEAR keeps the accounting equation while no total has saturated (R125). -/
theorem exec_keeps {c : Instr} {s t : State} (h : exec c s = .next t) (hm : ∀ m, carried c = some m → notClear m) :
    s.account.keeps t.account := by
  cases hc : carried c with
  | some m =>
    rw [exec_carried hc] at h
    obtain rfl := Host.Outcome.next.inj h
    have received := receive_keeps (hm m hc) (s.withPinsOf c)
    rwa [State.withPinsOf_account] at received
  | none =>
    by_cases hn : ∃ n, c = .powerOnReset n
    · obtain ⟨n, rfl⟩ := hn
      obtain rfl := Host.Outcome.next.inj h
      exact fun _ _ _ => Account.balanced_empty
    · exact Account.keeps_of_eq (exec_uncarried hc (fun n hn' => hn ⟨n, hn'⟩) h)

/-! ### The statement -/

/-- A state with the account of a reset holds nothing, has every total 0 and is balanced. -/
theorem State.cleared {t : State} (h : t.account = ⟨Queues.empty, Totals.zero⟩) :
    t.queues.isEmpty ∧ t.totals = ⟨⟨0, 0, 0, 0, 0, 0, 0⟩, ⟨0, 0, 0, 0, 0, 0, 0⟩, ⟨0, 0, 0, 0, 0, 0, 0⟩⟩ ∧ t.balanced := by
  obtain ⟨hq, ht⟩ := Account.mk.inj h
  refine ⟨hq ▸ ⟨rfl, rfl, rfl, rfl, rfl, rfl⟩, ht, ?_⟩
  rw [State.balanced_iff, h]
  exact Account.balanced_empty

theorem Queues.named_of {q : Queues} (hb : ∀ b ∈ q.bq, b.serial ≠ 0) (hc : ∀ c ∈ q.cq, c.serial ≠ 0)
    (hj : ∀ j ∈ q.jq, j.serial ≠ 0) : q.named := by
  simpa [Queues.named] using ⟨hb, hc, hj⟩

/-- A request of node 0 leaves the account that its operation leaves. -/
theorem receive_request_account {s : State} {h : Envelope} (ho : s.obeys h) (r : Request) (arg : Byte) :
    (receive (h.message Kind.ctrl.code [r.code, arg]) s).account = (ctrlRequest r h.tag arg s.arrival).s.account := by
  rw [receive_request ho, finish_account]

/-- Settles O59: an event changes the account by a sighting that is counted as it joins, by items that leave with their
tallies counted, or by a reset; the totals count what they are told as long as none saturates. -/
theorem accountingKept : Obligations.AccountingKept := by
  refine ⟨fun c s t h hm hb hc hj hu hbal => ?_, fun n s t h => ?_, fun h arg s t ho => ⟨fun ht => ?_, fun ht => ?_⟩⟩
  · rw [State.balanced_iff] at hbal ⊢
    exact exec_keeps h hm (Queues.named_of hb hc hj) ((State.unsaturated_iff t).mp hu) hbal
  · obtain rfl := Host.Outcome.next.inj h
    exact State.cleared (powerOnReset_account n s)
  · obtain rfl := Host.Outcome.next.inj ht
    exact State.cleared (receive_request_account ho .reset arg)
  · obtain rfl := Host.Outcome.next.inj ht
    have cleared := (receive_request_account ho .clear arg).trans (ctrlClear_account h.tag s.arrival)
    rw [State.arrival_s, State.arrived_queues] at cleared
    exact Account.mk.inj cleared

end Sys2Proof.Machine
end

section
/-! SUPPORT. Run Control's requests that discard work or counts: ABORT and PURGE (R139, R140), CLEAR (R141). -/

namespace Sys2Proof.Machine

/-! ### Collection codes -/

theorem Collection.ofCode_code (c : Collection) : Collection.ofCode c.code = some c := by cases c <;> rfl

theorem Collection.ofCode_eq_none {n : Nat} (h : n = 0 ∨ 6 < n) : Collection.ofCode n = none := by
  unfold Collection.ofCode
  split <;> simp_all

/-! ### Emptying every collection -/

/-- The PURGED tallies of all six collections, in the order in which ABORT empties them (R139). -/
def Queues.everyTally (q : Queues) : List Tally :=
  q.purgeTallies .bq ++ q.purgeTallies .cq ++ q.purgeTallies .jq ++ q.purgeTallies .tq ++ q.purgeTallies .pt
    ++ q.purgeTallies .aq

/-- Emptying one collection leaves the tallies of the others, so emptying all six in turn counts what each held. -/
theorem purgeAll_every (e : Ev) :
    purgeAll [.bq, .cq, .jq, .tq, .pt, .aq] e = (e.s.queues.everyTally, { e with s := { e.s with
      queues := Queues.empty
      totals := e.s.totals.talliedAll e.s.queues.everyTally } }) := by
  simp only [purgeAll, purgeOne, countTallies, Queues.purgeTallies, Queues.clear, Queues.everyTally,
    ← Totals.talliedAll_append, List.append_assoc, List.append_nil]
  rfl

/-! ### Feed levels that stay PAUSE -/

/-- Outside RUN a feeder whose last level sent is PAUSE keeps it, and no order is formed (R50, R51). -/
theorem State.levelledFrom_paused {s : State} (hf : s.feed = FeedLevels.paused) (hr : s.rc.state ≠ .run)
    (before : Queues) (f : Feeder) : s.levelledFrom before f = s ∧ s.orderFrom before f = [] := by
  have hl : computedLevel s f = s.feed.of f := by
    rw [computedLevel, if_neg hr, hf]
    cases f <;> rfl
  constructor
  · rw [State.levelledFrom, State.levelled, hl, FeedLevels.set_of, ite_self]
  · rw [State.orderFrom, State.levelOrder, if_pos hl, ite_self]

/-- The same of the computations for all three feeders at the end of an event. -/
theorem State.relevelled_paused {s : State} (hf : s.feed = FeedLevels.paused) (hr : s.rc.state ≠ .run)
    (before : Queues) : s.relevelled before = s ∧ s.relevelOrders before = [] := by
  have kept := State.levelledFrom_paused hf hr before
  simp [State.relevelled, State.relevelOrders, kept]

/-! ### From the emptied collections to the completion -/

theorem tallyMessage_of_same {u t : State} (h : u.sameButSending t) : tallyMessage t = tallyMessage u := by
  funext y
  unfold State.sameButSending at h
  rw [tallyMessage, tallyMessage, ownMessage, ownMessage, h]

/-- A request whose event has made `u`, outside RUN with the feeders at PAUSE, and then answers OK and hands the tallies
`ys` over, completes with `u`: the feed level computations behind it come to nothing (R50, R75, R129). -/
theorem completes_tallies {s u : State} {c : Instr} {h : Envelope} {r : Request} {arg : Byte} {before : Queues}
    {ys : List Tally} {e : Ev} (hc : exec c s = .next (receive (h.message Kind.ctrl.code [r.code, arg]) s))
    (ho : s.obeys h)
    (hr : ctrlRequest r h.tag arg s.arrival = computeLevels before (handTallies ys (answer h.tag .ok .none e)))
    (hu : e.s = u) (hfeeds : e.feeds = []) (howes : e.owes s.mu.log) (hp : u.phase = .running)
    (hpaused : u.feed = FeedLevels.paused) (hrun : u.rc.state ≠ .run) :
    s.completes c u (u.okReply h.tag :: ys.map (tallyMessage u)) := by
  subst hu
  have handed : handTallies ys (answer h.tag .ok .none e)
      = handAll (e.s.okReply h.tag :: ys.map (tallyMessage e.s)) e := by
    rw [handTallies, answer, tallyMessage_of_same (hand_same _ e)]
    rfl
  obtain ⟨hlevels, horders⟩ := State.relevelled_paused hpaused hrun before
  have hmessages : e.feedMessages = [] := by rw [Ev.feedMessages, hfeeds, List.flatMap_nil]
  rw [receive_request ho, hr, handed] at hc
  refine ⟨_, hc, State.sameButSending_trans (handAll_same _ e)
    (State.sameButSending_trans (computeLevels_same _ _) (finish_same _)), fun hroom => ?_⟩
  have sent := computeLevels_room (before := before) (ms := e.s.okReply h.tag :: ys.map (tallyMessage e.s)) hp howes
  simp only [hlevels, horders, hmessages, List.append_nil] at sent
  exact sent hroom

/-! ### ABORT and PURGE -/

/-- ABORT in HALT (R139). -/
theorem ctrlAbort_halt {e : Ev} (tag : Byte) (h : e.s.rc.state = .halt) :
    ctrlAbort tag e = computeLevels e.s.queues (handTallies e.s.queues.everyTally (answer tag .ok .none
      (enterConfig (logAlert .purged 0 0 0 (BitVec.ofNat 16 e.s.queues.everyTally.length)
        { e with s := { e.s with
          queues := Queues.empty
          totals := e.s.totals.talliedAll e.s.queues.everyTally } })))) := by
  rw [ctrlAbort, if_neg (not_not_intro h)]
  simp only [purgeAll_every]

/-- PURGE of a collection outside HALT (R140). -/
theorem ctrlPurge_not_halt {e : Ev} {c : Collection} {arg : Byte} (tag : Byte) (hc : arg.toNat = c.code)
    (h : e.s.rc.state ≠ .halt) : ctrlPurge tag arg e = answer tag .state .none e := by
  rw [ctrlPurge, hc, Collection.ofCode_code]
  exact if_pos h

/-- PURGE of a collection in HALT (R140). -/
theorem ctrlPurge_halt {e : Ev} {c : Collection} {arg : Byte} (tag : Byte) (hc : arg.toNat = c.code)
    (h : e.s.rc.state = .halt) :
    ctrlPurge tag arg e = computeLevels e.s.queues (handTallies (e.s.queues.purgeTallies c) (answer tag .ok .none
      (logAlert .purged 0 0 0 (BitVec.ofNat 16 (256 * arg.toNat + (e.s.queues.purgeTallies c).length))
        { e with s := { e.s with
          queues := e.s.queues.clear c
          totals := e.s.totals.talliedAll (e.s.queues.purgeTallies c) } }))) := by
  rw [ctrlPurge, hc, Collection.ofCode_code]
  exact if_neg (not_not_intro h)

/-- PURGE with an argument that names no collection (R140). -/
theorem ctrlPurge_unnamed {arg : Byte} (tag : Byte) (e : Ev) (h : arg.toNat = 0 ∨ 6 < arg.toNat) :
    ctrlPurge tag arg e = answer tag .range .none e := by
  rw [ctrlPurge, Collection.ofCode_eq_none h]

/-- Settles O19: in HALT both requests empty, count and log, then answer and hand the tallies over; the levels that follow
stay PAUSE. Otherwise the first test that fails answers alone. -/
theorem workDiscarded : Obligations.WorkDiscarded := by
  refine ⟨fun q => ⟨rfl, rfl, rfl, rfl, rfl, rfl⟩, fun h arg s ho => ?_⟩
  have running : s.arrived.phase = .running := (State.arrived_phase s).trans ho.1
  have owed : ∀ (v : State) (detail : Word), v.mu = s.arrived.mu →
      (logAlert .purged 0 0 0 detail { s.arrival with s := v }).owes s.mu.log :=
    fun v _ hm => Ev.owes_logAlert (e := { s.arrival with s := v }) (Ev.owes_of_eq s.arrival_owes hm rfl) ..
  refine ⟨fun hstate => ?_, fun hhalt hpaused => ?_, fun hcode => ?_, fun c hcode =>
    ⟨fun hstate => ?_, fun hhalt hpaused => ?_⟩⟩
  · exact onlyAnswers_request (r := .abort) (exec_carried rfl s) ho (if_pos hstate)
  · exact completes_tallies (r := .abort) (exec_carried rfl s) ho (ctrlAbort_halt h.tag hhalt) rfl rfl
      (Ev.owes_of_eq (owed _ _ rfl) rfl rfl) running hpaused (by decide : RunState.config ≠ .run)
  · exact onlyAnswers_request (r := .purge) (exec_carried rfl s) ho (ctrlPurge_unnamed h.tag _ hcode)
  · exact onlyAnswers_request (r := .purge) (exec_carried rfl s) ho (ctrlPurge_not_halt h.tag hcode hstate)
  · exact completes_tallies (r := .purge) (exec_carried rfl s) ho (ctrlPurge_halt h.tag hcode hhalt) rfl rfl
      (owed _ _ rfl) running hpaused (hhalt.trans_ne (by decide))

/-! ### CLEAR -/

/-- Settles O21: CLEAR makes its two changes in every run state and answers OK. -/
theorem clearZeroesTotals : Obligations.ClearZeroesTotals := by
  intro h arg s ho
  exact completes_okReply (r := .clear) (exec_carried rfl s) ho rfl rfl rfl

end Sys2Proof.Machine
end

section
/-! SUPPORT. The step (log 3), and the state a power-on reset leaves (R144, R174). -/

namespace Sys2Proof.Machine

/-! ### The step -/

/-- Settles O1: both halves are the two cases of the queue of commands. -/
theorem stepRunsFrontCommand : Obligations.StepRunsFrontCommand := by
  refine ⟨fun c rest s => rfl, fun s hidle => ?_⟩
  unfold step
  rw [hidle]

/-! ### A STORE cut off by power-on reset -/

theorem Store.interrupted_idle {t : Store} (h : t.op = .idle) (written : Nat) : t.interrupted written = t := by
  rw [Store.interrupted, h]

theorem Store.interrupted_inFlight {t : Store} {w : Settings} (h : t.op = .inFlight w) (written : Nat) :
    t.interrupted written = t.ended written w := by
  rw [Store.interrupted, h]

theorem Store.interrupted_op (t : Store) (written : Nat) : (t.interrupted written).op = .idle := by
  cases h : t.op with
  | idle => rw [Store.interrupted_idle h, h]
  | inFlight w => rw [Store.interrupted_inFlight h]; rfl

/-- A group of a cut-off STORE is either completely written or left without its marker (R173, R174). -/
theorem StoreGroup.stored_cases {α : Type} (g : StoreGroup α) (number written : Nat) (x : α) :
    if number ≤ written then g.stored number written x = ⟨true, x, .clean⟩
    else (g.stored number written x).marker = false := by
  unfold StoreGroup.stored
  split
  · rfl
  · rfl

/-- Settles O3: every block takes its power-on value, and the store is that of the STORE cut off. -/
theorem powerOnResetValues : Obligations.PowerOnResetValues := by
  intro written s
  refine ⟨powerOnReset written s, rfl, rfl, rfl, rfl, rfl, rfl, rfl, rfl, rfl, rfl, rfl, rfl, rfl,
    fun i => ⟨Table.get_fill .., Table.get_fill .., Table.get_fill ..⟩, rfl, rfl, rfl, fun i => Table.get_fill ..,
    rfl, rfl, rfl, rfl, fun i => ?_, rfl, rfl, rfl, s.store.interrupted_op written,
    fun hop => Store.interrupted_idle hop written, fun w hop => ?_⟩
  · have hoff : (powerOnReset written s).iron.comparators.get i
        = Comparator.off ((Settings.default.comparators.map ComparatorRecord.config).get i) := Table.get_map ..
    rw [hoff]
    exact ⟨rfl, rfl⟩
  · have hstore : (powerOnReset written s).store = s.store.ended written w := Store.interrupted_inFlight hop written
    rw [hstore]
    exact ⟨StoreGroup.stored_cases .., StoreGroup.stored_cases .., StoreGroup.stored_cases ..,
      StoreGroup.stored_cases .., StoreGroup.stored_cases .., StoreGroup.stored_cases .., StoreGroup.stored_cases ..⟩

end Sys2Proof.Machine
end

section
/-! SUPPORT. Decisions without a state: verdicts (R27, R28), shots (R32 to R34), reconciliation and starving (R62 to R65),
the casing and jacket decisions (R66, R111), and PURGED tallies (R122). -/

namespace Sys2Proof.Machine

/-! ### Verdicts -/

/-- Settles O39: both verdicts are read off their definitions. -/
theorem toleranceAndFit : Obligations.ToleranceAndFit := by
  intro r d spine c
  constructor
  · simp only [Corrected.inTolerance, Bool.and_eq_true, Bool.not_eq_true', decide_eq_true_eq, abs_le, and_assoc]
    refine and_congr_right fun _ => ?_
    omega
  · rw [fits, Bool.and_eq_true, decide_eq_true_iff, decide_eq_true_iff]
    rfl

/-! ### Shots -/

theorem doseSide_unpasted (area film shot carry : Nat) : doseSide false area film shot carry = ⟨0, carry, false⟩ := rfl

theorem doseSide_fires {area film shot carry : Nat} (h : (area * film / 100 + carry) / shot ≤ 4095) :
    doseSide true area film shot carry
      = ⟨(area * film / 100 + carry) / shot, (area * film / 100 + carry) % shot, false⟩ := by
  have hrest (t : Nat) : t - t / shot * shot = t % shot := by
    rw [Nat.mul_comm]
    exact (Nat.mod_eq_sub_mul_div).symm
  simp only [doseSide, if_true, Config.maxShots, if_neg (Nat.not_lt.mpr h), hrest]

theorem doseSide_clamps {area film shot carry : Nat} (h : 4095 < (area * film / 100 + carry) / shot) :
    doseSide true area film shot carry = ⟨4095, 0, true⟩ := by
  exact if_pos h

/-- A side leaves a carry below the shot size when it found one (R33). -/
theorem doseSide_carry_lt {pasted : Bool} {area film shot carry : Nat} (hshot : 1 ≤ shot) (h : carry < shot) :
    (doseSide pasted area film shot carry).carry < shot := by
  cases pasted with
  | false => exact h
  | true =>
    rcases Nat.lt_or_ge 4095 ((area * film / 100 + carry) / shot) with hc | hc
    · rw [doseSide_clamps hc]
      exact hshot
    · rw [doseSide_fires hc]
      exact Nat.mod_lt _ hshot

theorem leftCarry_ne_rightCarry (r : Fin 32) : leftCarry r ≠ rightCarry r := by
  revert r
  decide

/-- Settles O40: each side by whether it is pasted and clamps, the carries by the two writes. -/
theorem doseShots : Obligations.DoseShots := by
  intro u d r area side left right
  have hside (pasted : Bool) (film carry : Nat) : side pasted film carry (doseSide pasted area film r.shot carry) := by
    refine ⟨?_, ?_, ?_⟩
    · rintro rfl
      exact doseSide_unpasted ..
    · rintro rfl h
      exact doseSide_fires h
    · rintro rfl h
      exact doseSide_clamps h
  have hne : right ≠ left := (leftCarry_ne_rightCarry d.recipe).symm
  refine ⟨hside .., hside .., rfl, ?_, Table.get_set_same .., fun i hl hr => ?_, fun hshot hcarry =>
    doseSide_carry_lt hshot hcarry⟩
  · exact (Table.get_set_other _ _ hne).trans (Table.get_set_same ..)
  · exact (Table.get_set_other _ _ hr.symm).trans (Table.get_set_other _ _ hl.symm)

/-! ### Reconciliation and starving -/

/-- Reconciliation follows the scheme of R62 to R64 whenever the two accessors of an entry's counts count its absences. -/
theorem reconcile_reconcilesBy {α : Type} {wait : α → Waiting} {setWait : Waiting → α → α} {counted : Nat → α → α}
    (h : ∀ n x, setWait { wait x with absent := n } x = counted n x) : reconcilesBy wait setWait counted := by
  intro limit x xs absent r
  refine ⟨?_, rfl, fun hlt => ?_, fun hge => ?_, rfl, ⟨rfl, rfl, rfl, rfl, rfl⟩, ⟨rfl, rfl, rfl, rfl, rfl⟩⟩
  · simp only [r, reconcile, if_true, h]
  · simp only [r, reconcile, Bool.false_eq_true, if_false, h, if_pos hlt, absent]
  · simp only [r, reconcile, Bool.false_eq_true, if_false, h, if_neg (Nat.not_lt.mpr hge), absent]

/-- Settles O48: one scheme for the four kinds of entries, and the counts of a starved head. -/
theorem presenceAndStarving : Obligations.PresenceAndStarving := by
  refine ⟨reconcile_reconcilesBy fun _ _ => rfl, reconcile_reconcilesBy fun _ _ => rfl,
    reconcile_reconcilesBy fun _ _ => rfl, reconcile_reconcilesBy fun _ _ => rfl, fun limit w => ⟨starve_eq w limit, ?_⟩⟩
  rw [starveAlerts_eq]
  simp [starvedNow]

/-! ### The casing and the jacket decision -/

/-- Some entry within the first `k` of a list meets a test exactly when one of the first `k` indices names such an entry. -/
theorem any_take_iff {α : Type} (k : Nat) (xs : List α) (p : α → Bool) :
    (xs.take k).any p = true ↔ ∃ i, i < k ∧ ∃ x, xs[i]? = some x ∧ p x = true := by
  simp only [List.any_eq_true, List.mem_iff_getElem?, List.getElem?_take, Option.ite_none_right_eq_some]
  constructor
  · rintro ⟨x, ⟨i, hi, hx⟩, hp⟩
    exact ⟨i, hi, x, hx, hp⟩
  · rintro ⟨i, hi, x, hx, hp⟩
    exact ⟨x, ⟨i, hi, hx⟩, hp⟩

theorem caseAhead_iff (k : Nat) (key : ItemKey) (cs : List CaseEntry) :
    caseAhead k key cs = true ↔ ∃ i, i < k ∧ ∃ x, cs[i]? = some x ∧ x.key = key := by
  rw [caseAhead, any_take_iff]
  simp

theorem jacketAhead_iff (k : Nat) (key : ItemKey) (js : List JacketEntry) :
    jacketAhead k key js = true ↔ ∃ i, i < k ∧ ∃ x, js[i]? = some x ∧ x.key = key := by
  rw [jacketAhead, any_take_iff]
  simp

/-- Settles O49: each case of R66 and R111 is the branch its tests select. -/
theorem casingAndJacketDecisions : Obligations.CasingAndJacketDecisions := by
  refine ⟨fun l cs b c => ?_, fun l js k j => ?_⟩
  · intro ahead
    have hahead (key : ItemKey) : caseAhead l.caseWindow key cs = true ↔ ahead key := caseAhead_iff ..
    refine ⟨fun hflag => ?_, fun f hf ho => ?_, rfl, rfl, rfl⟩
    · cases hb : b.title with
      | none => simp only [casingCase, hb]
      | some f =>
        have ho : b.offCaliper = true := hflag.resolve_left (by simp [hb])
        simp only [casingCase, hb, ho, if_true]
    · simp only [casingCase, hf, ho, Bool.false_eq_true, if_false, hahead]
      refine ⟨fun hk ha => ?_, fun hk ha => ?_, fun hk hfit => ?_, fun hk hfit hlt => ?_, fun hk hfit hge => ?_⟩
      · rw [if_pos hk, if_pos ha]
      · rw [if_pos hk, if_neg ha]
      · rw [if_neg (not_not_intro hk), if_pos hfit]
      · rw [if_neg (not_not_intro hk), if_neg (by simp [hfit]), if_pos hlt]
      · rw [if_neg (not_not_intro hk), if_neg (by simp [hfit]), if_neg (Nat.not_lt.mpr hge)]
  · intro ahead
    have hahead : jacketAhead l.jacketWindow k.jacketKey js = true ↔ ahead := jacketAhead_iff ..
    simp only [jacketCase, hahead]
    refine ⟨fun h0 => ⟨if_pos h0, if_pos h0⟩, fun h0 hk ha => ?_, fun h0 hk ha => ?_, fun h0 hk => ?_,
      fun h0 => if_neg h0, trivial, trivial⟩
    · rw [if_neg h0, if_pos hk, if_pos ha]
    · rw [if_neg h0, if_pos hk, if_neg ha]
    · rw [if_neg h0, if_neg (not_not_intro hk)]

/-! ### PURGED tallies -/

theorem mem_reasonIf {b : Bool} {r x : TallyReason} : x ∈ reasonIf b r ↔ x = r ∧ b = true := by
  cases b <;> simp [reasonIf]

/-- Settles O20: a collection's PURGED tallies are those of its entries one by one, and each entry gives its fields. -/
theorem purgeTallyFields : Obligations.PurgeTallyFields := by
  intro q b c j r
  refine ⟨List.map_eq_flatMap, List.map_eq_flatMap, List.map_eq_flatMap, List.map_eq_flatMap, List.map_eq_flatMap,
    List.map_eq_flatMap, ⟨_, rfl, rfl, rfl, ?_, rfl, rfl, rfl, fun x => ?_⟩, rfl, rfl, rfl,
    ⟨_, rfl, rfl, rfl, rfl, rfl, rfl, rfl, fun x => ?_⟩⟩
  · simp only [BlockEntry.tally, BlockEntry.tallyKey, Option.isNone_iff_eq_none]
  · simp only [BlockEntry.tally, BlockEntry.reasons, List.mem_append, mem_reasonIf, Option.isNone_iff_eq_none, or_assoc]
  · simp only [BookRecord.tally, BookFlags.reasons, List.mem_append, mem_reasonIf, List.not_mem_nil, or_false, or_assoc]

end Sys2Proof.Machine
end

section
/-! SUPPORT. The run total a tally raises (R123), the feed levels of an event (R50, R51), and the state after reset. -/

namespace Sys2Proof.Machine

/-! ### Run totals -/

/-- The place of the first total of an item type among the 21 (Table 7-5). -/
def ItemType.firstTotal : ItemType → Nat
  | .block => 0
  | .caseItem => 7
  | .jacket => 14

/-- The place of a route's total in its column (Table 7-5). -/
def Route.totalRow : Route → Nat
  | .good => 1
  | .inspect => 2
  | .reject => 3
  | .lost => 4
  | .purged => 5

/-- The place of the total a tally raises among the 21 (R123). -/
def Tally.totalPlace (y : Tally) : Nat := y.item.firstTotal + if y.serial = 0 then 6 else y.route.totalRow

theorem ItemTotals.list_tallied (c : ItemTotals) (serial : Serial) (route : Route) :
    (c.tallied serial route).list = c.list.modify (if serial = 0 then 6 else route.totalRow) total1 := by
  unfold ItemTotals.tallied
  split
  · rfl
  · cases route <;> rfl

/-- A tally raises the total at its place and no other (R123). -/
theorem Totals.list_tallied (t : Totals) (y : Tally) : (t.tallied y).list = t.list.modify y.totalPlace total1 := by
  have hcol := ItemTotals.list_tallied (t.of y.item) y.serial y.route
  have hrow : (if y.serial = 0 then 6 else y.route.totalRow) < 7 := by
    split
    · decide
    · cases y.route <;> decide
  unfold Tally.totalPlace
  revert hcol hrow
  generalize (if y.serial = 0 then 6 else y.route.totalRow) = k
  intro hcol hk
  obtain ⟨b, c, j⟩ := t
  cases hi : y.item <;> simp only [hi, Totals.of] at hcol <;>
    simp only [Totals.tallied, hi, Totals.of, Totals.set, Totals.list, hcol, ItemType.firstTotal] <;>
    interval_cases k <;> rfl

theorem Totals.getD_tallied (t : Totals) (y : Tally) {i : Nat} (hi : i < 21) :
    (t.tallied y).list.getD i 0 = if i = y.totalPlace then total1 (t.list.getD i 0) else t.list.getD i 0 := by
  have hlen : i < t.list.length := hi
  rw [Totals.list_tallied, List.getD_eq_getElem?_getD, List.getD_eq_getElem?_getD, List.getElem?_modify,
    List.getElem?_eq_getElem hlen]
  by_cases h : i = y.totalPlace
  · simp [h]
  · simp [h, Ne.symm h]

/-- Tallies raise each total by as many of them as name it, saturating (R75, R123). -/
theorem Totals.getD_talliedAll (t : Totals) (ys : List Tally) {i : Nat} (hi : i < 21)
    (htop : t.list.getD i 0 ≤ 4294967295) :
    (t.talliedAll ys).list.getD i 0 = min 4294967295 (t.list.getD i 0 + ys.countP fun y => y.totalPlace == i) := by
  induction ys generalizing t with
  | nil => exact (min_eq_right htop).symm
  | cons y ys ih =>
    have hstep := t.getD_tallied y hi
    by_cases h : i = y.totalPlace
    · rw [if_pos h, total1, satAdd, Config.totalTop] at hstep
      rw [Totals.talliedAll, ih _ (by rw [hstep]; exact min_le_left ..), hstep,
        List.countP_cons_of_pos (by simp [h])]
      omega
    · rw [if_neg h] at hstep
      rw [Totals.talliedAll, ih _ (by rw [hstep]; exact htop), hstep,
        List.countP_cons_of_neg (by simpa using Ne.symm h)]

/-- Settles O50: the statement's numbering is that of `Totals.list`, its raised total `Tally.totalPlace`. -/
theorem talliesRaiseTheirTotals : Obligations.TalliesRaiseTheirTotals := by
  unfold Obligations.TalliesRaiseTheirTotals
  intro numbered column row raised
  have hraised (y : Tally) : raised y = y.totalPlace := by
    obtain ⟨item, serial, key, route, stage, reasons, thickness⟩ := y
    cases item <;> cases route <;> rfl
  refine ⟨fun t y i hi => ?_, fun t ys i hi htop => ?_⟩
  · rw [hraised]
    exact t.getD_tallied y hi
  · simp only [hraised]
    exact t.getD_talliedAll ys hi htop

/-! ### Feed levels -/

/-- A computation sets the last level sent, and forms an order when it differs (R51). -/
theorem computeLevel_eq (f : Feeder) (e : Ev) :
    computeLevel f e = { e with
      s := e.s.levelled f
      feeds := e.feeds ++ if computedLevel e.s f = e.s.feed.of f then [] else [(f, computedLevel e.s f)] } := by
  unfold computeLevel
  split
  case isTrue h =>
    rw [State.levelled, h, FeedLevels.set_of, List.append_nil]
  case isFalse h => rfl

theorem levelIfChanged_same_occupancy {before : Queues} {f : Feeder} {e : Ev}
    (h : e.s.queues.fedBy f = before.fedBy f) : levelIfChanged before f e = e := if_pos h

theorem levelIfChanged_changed {before : Queues} {f : Feeder} {e : Ev} (h : e.s.queues.fedBy f ≠ before.fedBy f) :
    levelIfChanged before f e = { e with
      s := e.s.levelled f
      feeds := e.feeds ++ if computedLevel e.s f = e.s.feed.of f then [] else [(f, computedLevel e.s f)] } :=
  (if_neg h).trans (computeLevel_eq f e)

theorem State.sameButSending_feedOrder {s t : State} (h : s.sameButSending t) (f : Feeder) (v : FeedLevel) :
    t.feedOrder f v = s.feedOrder f v := by
  unfold State.sameButSending at h
  rw [h]
  rfl

/-- Settles O46: the levels are read off their definition, the computations at an event's end are those of
`computeLevels_spec`. -/
theorem feedLevelsComputed : Obligations.FeedLevelsComputed := by
  intro before e s level b c j
  obtain ⟨hs, hfeeds, -⟩ := computeLevels_spec before e
  refine ⟨⟨rfl, rfl, rfl⟩, ⟨rfl, rfl, rfl⟩, ⟨rfl, rfl, rfl⟩,
    fun h => levelIfChanged_same_occupancy (f := .block) h, fun h => levelIfChanged_same_occupancy (f := .caseFeeder) h,
    fun h => levelIfChanged_same_occupancy (f := .jacket) h, fun h => levelIfChanged_changed (f := .block) h,
    fun h => levelIfChanged_changed (f := .caseFeeder) h, fun h => levelIfChanged_changed (f := .jacket) h, hs, ?_⟩
  simpa only [Ev.feedMessages, State.sameButSending_feedOrder (computeLevels_same before e)] using hfeeds

/-! ### The state after reset -/

theorem Table.mem_fill {α : Type} {n : Nat} {x y : α} (h : y ∈ (Table.fill n x).list) : y = x :=
  List.eq_of_mem_replicate h

theorem Bank.unique_fill_empty : Bank.unique (Table.fill 512 TitleRecord.empty) := fun i j hi => by
  rw [Table.get_fill] at hi
  exact absurd rfl hi

/-- An all-empty Title Table is sound whatever its protect level (R17). -/
theorem TitleTable.powerOn_sound (level : Fin 4) : (TitleTable.powerOn level).sound := by
  refine ⟨fun r hr => .inl ?_, Bank.unique_fill_empty, Bank.unique_fill_empty, fun i => ?_⟩
  · rcases List.mem_append.mp hr with h | h <;> exact Table.mem_fill h
  · have hleft : (TitleTable.powerOn level).proofLeft.get i = 0 := Table.get_fill ..
    rw [hleft]
    exact Nat.zero_le _

/-- The default settings are in range (R171). -/
theorem State.reset_settingsSound : State.reset.settingsSound := by
  refine ⟨by decide, by decide, ?_, by decide, ?_⟩
  · change ∀ c ∈ [_, _, _, _], _
    decide
  · intro n hn
    rw [Table.mem_fill hn]
    decide

/-- With no carry left a Dose Unit whose recipes are in range is sound (R30, R33). -/
theorem DoseUnit.sound_clear {recipes : Table Recipe 32} (h : ∀ r ∈ recipes.list, r.inRange = true) :
    DoseUnit.sound ⟨recipes, Table.fill 64 0⟩ := by
  refine ⟨h, fun i => ?_⟩
  have hin := h _ (Table.mem_list_iff.mpr ⟨Fin.ofNat 32 (i.val / 2), rfl⟩)
  rw [Recipe.inRange, decide_eq_true_iff] at hin
  obtain ⟨-, -, hshot, -⟩ := hin
  rw [Table.get_fill]
  exact hshot

theorem Queues.empty_serialsSound : Queues.empty.serialsSound := by
  refine ⟨?_, ?_, ?_, ?_, ?_, ?_⟩ <;> simp [Queues.empty, Queues.blockSerials, PressTrain.empty, PressTrain.records,
    PressTrain.positions]

/-- Settles O58: a reset holds nothing, has default settings, and its ring is still. -/
theorem resetMeetsInvariants : Obligations.ResetMeetsInvariants := by
  refine ⟨⟨?_, ?_, ?_, ?_, ?_⟩, ⟨TitleTable.powerOn_sound _, State.reset_settingsSound, ?_, ?_,
    Queues.empty_serialsSound⟩, ?_⟩
  · exact ⟨by decide, by decide, fun _ => ⟨rfl, rfl, rfl, rfl, rfl, rfl⟩, fun _ => rfl, fun h => absurd h (by decide)⟩
  · exact ⟨by decide, by decide, by decide⟩
  · exact ⟨by decide, by decide, by decide, by decide, by decide, by decide, by decide⟩
  · exact ⟨by decide, by decide, by decide, fun _ _ => ⟨rfl, rfl⟩⟩
  · exact fun _ => ⟨rfl, rfl, rfl, rfl, rfl, fun x hx => Table.mem_fill hx⟩
  · refine DoseUnit.sound_clear fun r hr => ?_
    rw [Table.mem_fill hr]
    decide
  · refine ⟨?_, ?_, ?_, ?_, ?_, ?_⟩ <;> intro x hx <;> cases hx
  · rw [State.balanced_iff]
    exact Account.balanced_empty

end Sys2Proof.Machine
end

section
/-! SUPPORT. Fields, codes and layouts of messages (R146, Tables 8-3 to 8-5, 9-2 to 9-4, 10-1 to 10-5). -/

namespace Sys2Proof.Machine

/-! ### Fields written and read -/

theorem byteAt_bytes2 (w : BitVec 16) : byteAt (bytes2 w) 0 ++ byteAt (bytes2 w) 1 = w := by
  change w.extractLsb' 8 8 ++ w.extractLsb' 0 8 = w
  refine BitVec.eq_of_getLsbD_eq fun i hi => ?_
  simp only [BitVec.getLsbD_append, BitVec.getLsbD_extractLsb']
  grind

theorem byteAt_bytes3 (k : BitVec 24) : byteAt (bytes3 k) 0 ++ byteAt (bytes3 k) 1 ++ byteAt (bytes3 k) 2 = k := by
  change k.extractLsb' 16 8 ++ k.extractLsb' 8 8 ++ k.extractLsb' 0 8 = k
  refine BitVec.eq_of_getLsbD_eq fun i hi => ?_
  simp only [BitVec.getLsbD_append, BitVec.getLsbD_extractLsb']
  grind

theorem byteAt_bytes4 (x : BitVec 32) :
    byteAt (bytes4 x) 0 ++ byteAt (bytes4 x) 1 ++ byteAt (bytes4 x) 2 ++ byteAt (bytes4 x) 3 = x := by
  change x.extractLsb' 24 8 ++ x.extractLsb' 16 8 ++ x.extractLsb' 8 8 ++ x.extractLsb' 0 8 = x
  refine BitVec.eq_of_getLsbD_eq fun i hi => ?_
  simp only [BitVec.getLsbD_append, BitVec.getLsbD_extractLsb']
  grind

/-- The number of two fields one after the other, the first the more significant. -/
theorem toNat_append_eq {m n : Nat} (x : BitVec m) (y : BitVec n) : (x ++ y).toNat = 2 ^ n * x.toNat + y.toNat := by
  rw [BitVec.toNat_append, ← Nat.shiftLeft_add_eq_or_of_lt y.isLt, Nat.shiftLeft_eq, Nat.mul_comm]

theorem natAt2_eq (p : List Byte) (i : Nat) : natAt2 p i = 256 * natAt1 p i + natAt1 p (i + 1) := toNat_append_eq ..

theorem keyAt_toNat (p : List Byte) (i : Nat) : (keyAt p i).toNat = 65536 * natAt1 p i + natAt2 p (i + 1) := by
  have hkey : (keyAt p i).toNat = 256 * natAt2 p i + natAt1 p (i + 1 + 1) := toNat_append_eq ..
  rw [hkey, natAt2_eq, natAt2_eq]
  omega

theorem serialAt_toNat (p : List Byte) (i : Nat) : (serialAt p i).toNat = 65536 * natAt2 p i + natAt2 p (i + 2) :=
  toNat_append_eq ..

theorem intAt2_eq (p : List Byte) (i : Nat) :
    intAt2 p i = if natAt2 p i < 32768 then (natAt2 p i : Int) else (natAt2 p i : Int) - 65536 := by
  rw [intAt2, BitVec.toInt_eq_toNat_cond]
  unfold natAt2
  split <;> split <;> omega

/-! ### Reasons -/

theorem getLsbD_one_shiftLeft {k : Nat} (hk : k < 16) (i : Nat) : (1#16 <<< k).getLsbD i = true ↔ i = k := by
  rw [BitVec.getLsbD_shiftLeft, BitVec.getLsbD_one]
  simp only [Bool.and_eq_true, decide_eq_true_eq, Bool.not_eq_true', decide_eq_false_iff_not]
  omega

/-- The bits of a reason set are those of its members (Table 9-4). -/
theorem getLsbD_reasonBits (rs : List TallyReason) (i : Nat) :
    (reasonBits rs).getLsbD i = true ↔ ∃ r ∈ rs, i = r.bit := by
  induction rs with
  | nil => simp [reasonBits]
  | cons r rs ih =>
    have hr : r.bit < 16 := by cases r <;> decide
    rw [reasonBits, BitVec.getLsbD_or, Bool.or_eq_true, ih, getLsbD_one_shiftLeft hr, List.exists_mem_cons_iff, or_comm]

/-! ### Codes -/

theorem Kind.ofCode_iff (b : Byte) (k : Kind) : Kind.ofCode b = some k ↔ k.code = b := by
  refine ⟨Kind.code_of_ofCode, ?_⟩
  rintro rfl
  cases k <;> rfl

theorem Request.ofCode_iff (b : Byte) (r : Request) : Request.ofCode b = some r ↔ r.code = b := by
  refine ⟨Request.code_of_ofCode, ?_⟩
  rintro rfl
  cases r <;> rfl

theorem Region.ofCode_iff (b : Byte) (r : Region) : Region.ofCode b = some r ↔ r.code = b := by
  refine ⟨fun h => by simpa using List.find?_some h, ?_⟩
  rintro rfl
  exact Region.ofCode_code r

theorem CauseSet.add_eq (x : CauseSet) (c : Cause) :
    x.add c = ⟨x.master || c == .master, x.overflow || c == .overflow, x.tracking || c == .tracking,
      x.outboundFull || c == .outboundFull, x.noTaker || c == .noTaker, x.link || c == .link⟩ := by
  cases c <;> simp [CauseSet.add]

theorem CauseSet.weight_eq (x : CauseSet) :
    x.weight = (if x.master then 1 else 0) + (if x.overflow then 2 else 0) + (if x.tracking then 4 else 0)
      + (if x.outboundFull then 8 else 0) + (if x.noTaker then 16 else 0) + (if x.link then 32 else 0) := by
  have hbit (b : Bool) (k : Nat) : k * b.toNat = if b then k else 0 := by cases b <;> simp
  rw [CauseSet.weight, hbit, hbit, hbit, hbit, hbit, ← one_mul x.master.toNat, hbit]

theorem LineMap.role_eq (map : LineMap) (i : Fin 9) : map.role (i.val + 1) = map.get i := by
  have hi : Fin.ofNat 9 (i.val + 1 - 1) = i := Fin.ext (Nat.mod_eq_of_lt i.isLt)
  rw [LineMap.role, hi]

/-- Settles O55: each code and layout is its table's, by cases on what is encoded. -/
theorem messageLayouts : Obligations.MessageLayouts := by
  refine ⟨fun s y => ?_, fun rs i => ?_, fun w k x => ⟨rfl, byteAt_bytes2 w, rfl, byteAt_bytes3 k, rfl, byteAt_bytes4 x⟩,
    fun s f v => ?_, fun s tag st r => ?_, fun s t => ⟨fun hs ht => if_pos ⟨hs, ht⟩, fun h => if_neg h⟩,
    fun k => ?_, fun r => ?_, fun r => ?_, fun a => ?_,
    fun b => ⟨Kind.ofCode_iff b, Request.ofCode_iff b, Region.ofCode_iff b⟩, fun r => ?_, fun c => ?_,
    ⟨rfl, rfl, rfl, rfl⟩, ⟨rfl, rfl, rfl⟩, ⟨rfl, rfl, rfl⟩, ⟨rfl, rfl⟩,
    fun x c => ⟨x.add_eq c, x.weight_eq⟩, LineMap.role_eq, fun p => rfl, fun p i => ⟨List.getD_eq_getElem?_getD .., rfl,
      natAt2_eq p i, rfl, keyAt_toNat p i, serialAt_toNat p i, intAt2_eq p i⟩⟩
  · obtain ⟨item, serial, key, route, stage, reasons, thickness⟩ := y
    cases item <;> cases route <;> cases stage <;> rfl
  · rw [getLsbD_reasonBits]
    refine exists_congr fun r => and_congr_right fun _ => ?_
    cases r <;> rfl
  · cases f <;> cases v <;> rfl
  · cases st <;> cases r <;> exact ⟨rfl, fun _ _ => rfl⟩
  · cases k <;> rfl
  · cases r <;> rfl
  · cases r <;> rfl
  · cases a <;> rfl
  · cases r <;> rfl
  · cases c <;> rfl

end Sys2Proof.Machine
end

section
/-! SUPPORT. Messages as bytes: when bytes are a message (R147), and that sending and receiving agree (R145, R146). -/

namespace Sys2Proof.Machine

/-! ### The tests of R147 -/

/-- The payload that `len` bytes of a message's rest give, under its header bytes. -/
def messageOf (dst src kind tag len : Byte) (rest : List Byte) : Message :=
  ⟨dst, src, kind, tag, rest.take len.toNat⟩

theorem decode_cons (dst src kind tag len : Byte) (rest : List Byte) :
    decode (dst :: src :: kind :: tag :: len :: rest)
      = if rest.length = len.toNat + 2 ∧ goodHeader (messageOf dst src kind tag len rest) = true
          ∧ wordAt rest len.toNat = crc (headed (messageOf dst src kind tag len rest)) then
          some (messageOf dst src kind tag len rest)
        else none := by
  rw [decode]
  by_cases h : rest.length = len.toNat + 2
  · simp [h, messageOf]
  · simp [h]

theorem decode_short {bytes : List Byte} (h : bytes.length < 5) : decode bytes = none := by
  match bytes, h with
  | [], _ => rfl
  | [_], _ => rfl
  | [_, _], _ => rfl
  | [_, _, _], _ => rfl
  | [_, _, _, _], _ => rfl
  | _ :: _ :: _ :: _ :: _ :: rest, h =>
    simp only [List.length_cons] at h
    omega

theorem natByte_toNat {n : Nat} (h : n ≤ 255) : (natByte n).toNat = n := by
  rw [natByte, BitVec.toNat_ofNat]
  omega

theorem natByte_of_toNat (b : Byte) : natByte b.toNat = b := BitVec.eq_of_toNat_eq (natByte_toNat (by omega))

theorem messageOf_payload_length {dst src kind tag len : Byte} {rest : List Byte} (h : rest.length = len.toNat + 2) :
    (messageOf dst src kind tag len rest).payload.length = len.toNat := by
  rw [messageOf, List.length_take]
  omega

/-- Header and payload of a received message are its bytes but for the CRC. -/
theorem headed_messageOf {dst src kind tag len : Byte} {rest : List Byte} (h : rest.length = len.toNat + 2) :
    headed (messageOf dst src kind tag len rest)
      = (dst :: src :: kind :: tag :: len :: rest).take (len.toNat + 5) := by
  rw [headed, messageOf_payload_length h, natByte_of_toNat]
  rfl

theorem goodHeader_messageOf {dst src kind tag len : Byte} {rest : List Byte} (h : rest.length = len.toNat + 2) :
    goodHeader (messageOf dst src kind tag len rest) = true ↔ dst.toNat ≤ 63 ∧ src.toNat ≤ 62 ∧ len.toNat ≤ 56 := by
  rw [goodHeader, decide_eq_true_iff, messageOf_payload_length h]
  rfl

/-- Bytes are no message exactly when they fail one of the tests of R147. -/
theorem decode_eq_none_iff (bytes : List Byte) :
    decode bytes = none ↔
      bytes.length < 7 ∨ 56 < natAt1 bytes 4 ∨ bytes.length ≠ 7 + natAt1 bytes 4
        ∨ wordAt bytes (bytes.length - 2) ≠ crc (bytes.take (bytes.length - 2))
        ∨ 63 < natAt1 bytes 0 ∨ 62 < natAt1 bytes 1 := by
  rcases Nat.lt_or_ge bytes.length 5 with hshort | hlong
  · exact iff_of_true (decode_short hshort) (.inl (by omega))
  match bytes, hlong with
  | dst :: src :: kind :: tag :: len :: rest, _ =>
    have hdst : natAt1 (dst :: src :: kind :: tag :: len :: rest) 0 = dst.toNat := rfl
    have hsrc : natAt1 (dst :: src :: kind :: tag :: len :: rest) 1 = src.toNat := rfl
    have hlen : natAt1 (dst :: src :: kind :: tag :: len :: rest) 4 = len.toNat := rfl
    simp only [decode_cons, ite_eq_right_iff, reduceCtorEq, imp_false, hdst, hsrc, hlen, List.length_cons]
    by_cases hrest : rest.length = len.toNat + 2
    · have hcrc : rest.length + 1 + 1 + 1 + 1 + 1 - 2 = len.toNat + 5 := by omega
      have hword : wordAt (dst :: src :: kind :: tag :: len :: rest) (len.toNat + 5) = wordAt rest len.toNat := rfl
      rw [goodHeader_messageOf hrest, headed_messageOf hrest, hcrc, hword]
      generalize wordAt rest len.toNat = w
      generalize crc _ = v
      by_cases hw : w = v
      · simp only [hw, hrest, true_and, and_true, ne_eq, not_true_eq_false, false_or]
        omega
      · exact iff_of_true (fun h => hw h.2.2) (.inr (.inr (.inr (.inl hw))))
    · exact iff_of_true (fun h => hrest h.1) (by omega)

/-! ### The round trip -/

theorem wordAt_append_bytes2 (p : List Byte) (w : BitVec 16) : wordAt (p ++ bytes2 w) p.length = w := by
  have hbyte (i : Nat) : byteAt (p ++ bytes2 w) (p.length + i) = byteAt (bytes2 w) i := by
    simp [byteAt, List.getD_eq_getElem?_getD, List.getElem?_append_right]
  rw [wordAt, hbyte 1, ← Nat.add_zero p.length, hbyte 0]
  exact byteAt_bytes2 w

/-- A good message is received as it was sent (R145, R147). -/
theorem decode_encode {m : Message} (h : goodHeader m = true) : decode (encode m) = some m := by
  have hlen : m.payload.length ≤ 56 := (of_decide_eq_true h).2.2
  have hnat : (natByte m.payload.length).toNat = m.payload.length := natByte_toNat (by omega)
  have hmsg : messageOf m.dst m.src m.kind m.tag (natByte m.payload.length) (m.payload ++ bytes2 (crc (headed m))) = m := by
    rw [messageOf, hnat, List.take_left' rfl]
  have hbytes : encode m = m.dst :: m.src :: m.kind :: m.tag :: natByte m.payload.length ::
      (m.payload ++ bytes2 (crc (headed m))) := rfl
  rw [hbytes, decode_cons, hmsg, hnat, if_pos ⟨List.length_append, h, wordAt_append_bytes2 ..⟩]

/-- The last two bytes of a list are the two-byte field they spell. -/
theorem take_append_bytes2_wordAt {rest : List Byte} {n : Nat} (h : rest.length = n + 2) :
    rest.take n ++ bytes2 (wordAt rest n) = rest := by
  rw [bytes2_wordAt]
  have hdrop : rest.drop n = [byteAt rest n, byteAt rest (n + 1)] := by
    rw [List.drop_eq_getElem_cons (by omega), List.drop_eq_getElem_cons (by omega), List.drop_of_length_le (by omega)]
    simp [byteAt, List.getD_eq_getElem?_getD, List.getElem?_eq_getElem (l := rest) (i := n) (by omega),
      List.getElem?_eq_getElem (l := rest) (i := n + 1) (by omega)]
  rw [← hdrop, List.take_append_drop]

/-- Bytes received as a message are that message as it travels (R145). -/
theorem encode_of_decode {bytes : List Byte} {m : Message} (h : decode bytes = some m) : encode m = bytes := by
  rcases Nat.lt_or_ge bytes.length 5 with hshort | hlong
  · rw [decode_short hshort] at h
    cases h
  match bytes, hlong with
  | dst :: src :: kind :: tag :: len :: rest, _ =>
    rw [decode_cons, Option.ite_none_right_eq_some] at h
    obtain ⟨⟨hrest, -, hcrc⟩, hm⟩ := h
    obtain rfl := Option.some.inj hm
    rw [encode, ← hcrc, headed_messageOf hrest]
    exact congrArg (fun l => dst :: src :: kind :: tag :: len :: l) (take_append_bytes2_wordAt hrest)

/-! ### The CRC, bit by bit -/

/-- One bit of a byte taken into the CRC register (R145). -/
def crcBit (r : Word) (bit : Bool) : Word := if r.getLsbD 15 = bit then r <<< 1 else (r <<< 1) ^^^ 0x1021

theorem shiftLeft_append_zero (b : Byte) : (b ++ 0#8 : Word) <<< 1 = (b <<< 1) ++ 0#8 := by
  refine BitVec.eq_of_getLsbD_eq fun i hi => ?_
  simp only [BitVec.getLsbD_shiftLeft, BitVec.getLsbD_append, BitVec.getLsbD_zero]
  grind

/-- A shift of the register with a byte laid over its upper half takes the byte's top bit in, and leaves the byte's other
bits laid over. -/
theorem crcShift_xor_append (r : Word) (b : Byte) :
    crcShift (r ^^^ (b ++ 0#8)) = crcBit r (b.getLsbD 7) ^^^ ((b <<< 1) ++ 0#8) := by
  have hmsb : (r ^^^ (b ++ 0#8)).msb = (r.getLsbD 15 ^^ b.getLsbD 7) := by
    have htop : (b ++ 0#8 : Word).getLsbD 15 = b.getLsbD 7 := BitVec.getLsbD_append ..
    rw [BitVec.msb_eq_getLsbD_last, BitVec.getLsbD_xor, htop]
  have hshift : (r ^^^ (b ++ 0#8)) <<< 1 = (r <<< 1) ^^^ ((b <<< 1) ++ 0#8) := by
    rw [BitVec.shiftLeft_xor_distrib, shiftLeft_append_zero]
  rw [crcShift, crcBit, hmsb, hshift]
  cases r.getLsbD 15 <;> cases b.getLsbD 7 <;> simp [BitVec.xor_assoc, BitVec.xor_comm]

theorem getLsbD_shiftLeft_seven (b : Byte) {k : Nat} (hk : k ≤ 7) : (b <<< k).getLsbD 7 = b.getLsbD (7 - k) := by
  rw [BitVec.getLsbD_shiftLeft]
  simp [Nat.not_lt.mpr hk]

/-- A byte is taken into the register bit by bit, most significant first (R145). -/
theorem crcByte_eq (r : Word) (b : Byte) :
    crcByte r b = [7, 6, 5, 4, 3, 2, 1, 0].foldl (fun (r : Word) (i : Nat) => crcBit r (b.getLsbD i)) r := by
  have hstep (r : Word) (k : Nat) (hk : k ≤ 7) :
      crcShift (r ^^^ ((b <<< k) ++ 0#8)) = crcBit r (b.getLsbD (7 - k)) ^^^ ((b <<< (k + 1)) ++ 0#8) := by
    rw [crcShift_xor_append, getLsbD_shiftLeft_seven b hk, ← BitVec.shiftLeft_add]
  have hgone : (b <<< 8 ++ 0#8 : Word) = 0#16 := by
    rw [BitVec.shiftLeft_eq_zero (le_refl 8)]
    decide
  have h0 : crcByte r b = crcByte r (b <<< 0) := by rw [BitVec.shiftLeft_zero]
  rw [h0, crcByte, hstep _ 0 (by decide), hstep _ 1 (by decide), hstep _ 2 (by decide), hstep _ 3 (by decide),
    hstep _ 4 (by decide), hstep _ 5 (by decide), hstep _ 6 (by decide), hstep _ 7 (by decide), hgone, BitVec.xor_zero]
  rfl

/-- Settles O9: the header's length byte and the CRC behind the payload are what the tests of R147 ask for. -/
theorem wireRoundTrip : Obligations.WireRoundTrip := by
  refine ⟨fun m h => decode_encode h, fun bytes m h => encode_of_decode h, fun m => rfl, rfl, fun bytes b => ?_⟩
  rw [crc, List.foldl_append]
  exact crcByte_eq _ b

end Sys2Proof.Machine
end

section
/-! SUPPORT. The link and the end of the load (R148, R170), and bad messages (R147, R148). -/

namespace Sys2Proof.Machine

/-! ### Events that form no message -/

/-- An event that leaves `u` and has formed no message lets an idle transmitter begin one and no more (R153). -/
theorem event_silent {f : Ev → Ev} {s u : State} (hp : s.phase = .running) (hf : f (Ev.start s) = ⟨u, [], 0⟩)
    (hu : u.phase = .running) : event f s = u.sending [] := by
  rw [event_running hp, hf, finish_silent hu]

/-! ### The end of the load -/

theorem State.withPinsOf_phase (c : Instr) (s : State) : (s.withPinsOf c).phase = s.phase := by cases c <;> rfl

/-- Until the load is over a command that carries a message is only the pin level it carries (R170, log 4). -/
theorem exec_carried_waiting {c : Instr} {s : State} (hp : s.phase ≠ .running)
    (h : (carried c).isSome ∨ ∃ bytes, c = .badMessage bytes ∨ c = .consecutiveBadLimit bytes) :
    exec c s = .next (s.withPinsOf c) := by
  rcases h with hsome | ⟨bytes, rfl | rfl⟩
  · obtain ⟨m, hm⟩ := Option.isSome_iff_exists.mp hsome
    rw [exec_carried hm, receive, event_waiting (by rwa [State.withPinsOf_phase])]
  · exact congrArg Host.Outcome.next (event_waiting hp)
  · exact congrArg Host.Outcome.next (event_waiting hp)

/-- Settles O5: the end of the load forms no message, and before it no event of the ring is one of the part. -/
theorem loadCompleteOpensRing : Obligations.LoadCompleteOpensRing := by
  refine ⟨fun s hp => ?_, fun c s hp h => exec_carried_waiting hp h, fun s hp => ⟨?_, ?_⟩⟩
  · have hring : (if s.pins.carrier then s.ring.found else s.ring)
        = if s.pins.carrier = true ∧ s.ring.link = .down then { s.ring with link := .acquiring } else s.ring := by
      unfold RingPort.found
      cases s.pins.carrier <;> simp
    have hload : loadComplete s = finish ⟨{ s with
        phase := .running
        ring := if s.pins.carrier then s.ring.found else s.ring }, [], 0⟩ := if_pos hp
    rw [exec, execLoadComplete, hload, hring, finish_silent rfl]
  · exact congrArg Host.Outcome.next (event_waiting hp)
  · exact congrArg Host.Outcome.next (event_waiting hp)

/-! ### The link -/

/-- An event that leaves UP hands over the FEED orders of the halt it may bring about, and the ALERT it owes (R132, R148,
R166). -/
theorem event_leaveUp {f : Ev → Ev} {s u : State} {l : LinkState} (hp : s.phase = .running)
    (hf : f (Ev.start s) = leaveUp l ⟨u, [], 0⟩) (hu : u.phase = .running) (hm : u.mu = s.mu) :
    let v := ({ u with ring := { u.ring with link := l } }).logging .linkDown 0 0 0 (l.code.setWidth 16)
    (v.caused .link).handsOver (v.causeOrders ++ s.alertFor (v.caused .link)) (event f s) := by
  intro v
  rw [event_running hp, hf]
  have owed : (Ev.mk { u with ring := { u.ring with link := l } } [] 0).owes s.mu.log :=
    Ev.owes_of_eq (Ev.owes_start s) hm rfl
  exact finish_raiseCause (e := logAlert .linkDown 0 0 0 (l.code.setWidth 16) ⟨_, [], 0⟩) rfl rfl hu
    (Ev.owes_logAlert owed ..)

/-- Settles O6: the transitions of R148 by the link state found. -/
theorem linkFollowsCarrier : Obligations.LinkFollowsCarrier := by
  intro s hp up down
  have found (r : RingPort) (hr : s.ring.found = r) : exec .carrierFound s = .next (({ up with ring := r }).sending []) :=
    congrArg Host.Outcome.next (event_silent hp (by rw [← hr]; rfl) hp)
  have lost (u : State) (hu : carrierGone (Ev.start down) = ⟨u, [], 0⟩) (hup : u.phase = .running) :
      exec .carrierLost s = .next (u.sending []) := congrArg Host.Outcome.next (event_silent hp hu hup)
  refine ⟨fun h => found _ (if_pos h), fun h => found s.ring (if_neg h), fun h => lost down ?_ hp,
    fun h => lost { down with ring := { s.ring with link := .down } } ?_ hp, fun h => ?_⟩
  · simp only [carrierGone, Ev.start, down, h]
  · simp only [carrierGone, Ev.start, down, h, setRing]
  · intro v
    refine ⟨_, rfl, event_leaveUp (s := down) (u := down) (l := .down) hp ?_ hp rfl⟩
    simp only [carrierGone, Ev.start, down, h]

/-! ### Bad messages -/

/-- The Ring Port after a bad message has been counted (R147). -/
def RingPort.countedBad (r : RingPort) : RingPort :=
  { r with linkErrors := min 65535 (r.linkErrors + 1), consecBad := min 8 (r.consecBad + 1) }

theorem badReceived_eq (e : Ev) :
    badReceived e
      = if e.s.ring.link = .up ∧ 7 ≤ e.s.ring.consecBad then leaveUp .acquiring (setRing e.s.ring.countedBad e)
        else setRing e.s.ring.countedBad e := by
  have hring : { e.s.ring.countError with
      consecBad := satAdd Config.consecBadLimit e.s.ring.countError.consecBad 1 } = e.s.ring.countedBad := rfl
  have hlimit : satAdd Config.consecBadLimit e.s.ring.countError.consecBad 1 = Config.consecBadLimit
      ↔ 7 ≤ e.s.ring.consecBad := by
    change min 8 (e.s.ring.consecBad + 1) = 8 ↔ _
    omega
  simp only [badReceived, hring, hlimit]
  rfl

theorem exec_bad {bytes : List Byte} {c : Instr} {s : State} (hd : decode bytes = none)
    (hc : c = .badMessage bytes ∨ c = .consecutiveBadLimit bytes) : exec c s = .next (event badReceived s) := by
  have hbytes : receiveBytes bytes s = event badReceived s := by rw [receiveBytes, hd]
  rcases hc with rfl | rfl <;> exact congrArg Host.Outcome.next hbytes

/-- Settles O7: a bad message is counted, and the eighth in a row of an UP link leaves UP. -/
theorem badMessagesJudgedAndCounted : Obligations.BadMessagesJudgedAndCounted := by
  refine ⟨decode_eq_none_iff, ?_⟩
  intro bytes c s hp hd hc r
  refine ⟨fun h => ?_, fun hup hseven => ?_⟩
  · rw [exec_bad hd hc]
    refine congrArg Host.Outcome.next (event_silent hp ?_ hp)
    exact (badReceived_eq _).trans (if_neg h)
  · intro v
    rw [exec_bad hd hc]
    refine ⟨_, rfl, event_leaveUp (u := { s with ring := r }) (l := .acquiring) hp ?_ hp rfl⟩
    exact (badReceived_eq _).trans (if_pos ⟨hup, hseven⟩)

end Sys2Proof.Machine
end

section
/-! SUPPORT. Disposal of good messages (R149 to R151): forwarded, consumed without effect, unknown, own ones that return;
and the transmitter (R153, R157). -/

namespace Sys2Proof.Machine

/-! ### The pin level a command carries -/

theorem State.hears_withPinsOf {s : State} {m : Message} (h : s.hears m) (c : Instr) : (s.withPinsOf c).hears m := by
  cases c <;> exact h

theorem State.withPinsOf_ring (c : Instr) (s : State) : (s.withPinsOf c).ring = s.ring := by cases c <;> rfl

theorem State.withPinsOf_mu (c : Instr) (s : State) : (s.withPinsOf c).mu = s.mu := by cases c <;> rfl

/-- A command whose message leaves `u` and forms no message of its own completes with `u`. -/
theorem completes_quiet {c : Instr} {m : Message} {s : State} {e : Ev} (hc : carried c = some m)
    (hr : receive m (s.withPinsOf c) = finish e) (hp : e.s.phase = .running) (hf : e.feeds = [])
    (ho : e.owes (s.withPinsOf c).mu.log) : s.completes c e.s [] := by
  have hx : exec c s = .next (finish (handAll [] e)) := by rw [exec_carried hc, hr]; rfl
  rw [State.withPinsOf_mu] at ho
  have h := completes_of (ms := []) hx rfl hp ho
  rwa [Ev.feedMessages, hf] at h

/-! ### Messages for other nodes -/

theorem takenWhenBroadcast_iff (m : Message) :
    takenWhenBroadcast m = true ↔ m.kind = 1 ∨ m.kind = 2 ∨ m.kind = 3 ∨ m.kind = 4 := by
  simp only [takenWhenBroadcast, Bool.or_eq_true, beq_iff_eq, Kind.code, or_assoc]

/-- Settles O10: a message that is not for the part is handed to the forward buffer and to no block. -/
theorem forwardedMessages : Obligations.ForwardedMessages := by
  intro c m s hc hh hdst hkind a
  have hown : m.dst ≠ (s.withPinsOf c).ring.ownNode := by rwa [State.withPinsOf_ring]
  have hheard : (s.withPinsOf c).heard m = { a with ring := a.ring.passingOn m } := if_neg hown
  have hr : receive m (s.withPinsOf c) = finish ((s.withPinsOf c).hearing m) := by
    rw [receive_hears (State.hears_withPinsOf hh c), if_neg hown, if_neg, forward_arrival _ _ hown]
    rintro ⟨hb, ht⟩
    exact hkind ⟨hb, (takenWhenBroadcast_iff m).mp ht⟩
  rw [← hheard]
  exact completes_quiet (e := (s.withPinsOf c).hearing m) hc hr
    ((State.heard_phase _ m).trans (State.hears_withPinsOf hh c).1) rfl (State.hearing_owes _ m)

/-! ### Messages consumed without effect -/

theorem fromMaster_other {src : Node} (h : src ≠ 0) (f : Ev → Ev) (e : Ev) : fromMaster src f e = e := if_neg h

/-- What the part takes without effect: a request or unknown kind of another source than node 0, a MARK of another source
or length, and the kinds only the part itself sends (R13, R129, R150). -/
theorem take_ignored {m : Message} (e : Ev)
    (h : (m.src ≠ 0 ∧ (m.kind = 0x20 ∨ m.kind = 0x21 ∨ m.kind = 0x22 ∨ Kind.ofCode m.kind = none))
      ∨ (m.kind = 4 ∧ (m.src ≠ 0 ∨ m.payload.length ≠ 2))
      ∨ m.kind = 0x08 ∨ m.kind = 0x10 ∨ m.kind = 0x11 ∨ m.kind = 0x12 ∨ m.kind = 0x13 ∨ m.kind = 0x28
      ∨ m.kind = 0x29 ∨ m.kind = 0x30) : take m e = e := by
  have of_kind (k : Kind) (hk : m.kind = k.code) : Kind.ofCode m.kind = some k := (Kind.ofCode_iff _ _).mpr hk.symm
  rw [take]
  rcases h with ⟨hsrc, hk | hk | hk | hk⟩ | ⟨hk, hform⟩ | hk | hk | hk | hk | hk | hk | hk | hk
  · simp only [of_kind .ctrl hk, fromMaster_other hsrc]
  · simp only [of_kind .write hk, fromMaster_other hsrc]
  · simp only [of_kind .read hk, fromMaster_other hsrc]
  · simp only [hk, fromMaster_other hsrc]
  · simp only [of_kind .mark hk, mark]
    rw [if_neg (by tauto)]
  · simp only [of_kind .tally hk]
  · simp only [of_kind .feed hk]
  · simp only [of_kind .casein hk]
  · simp only [of_kind .press hk]
  · simp only [of_kind .jacket hk]
  · simp only [of_kind .reply hk]
  · simp only [of_kind .alert hk]
  · simp only [of_kind .proof hk]

/-- Settles O11: the message reaches the part and its kind does nothing. -/
theorem foreignMessagesIgnored : Obligations.ForeignMessagesIgnored := by
  intro c m s hc hh hdst h
  have hown : m.dst = (s.withPinsOf c).ring.ownNode := by rwa [State.withPinsOf_ring]
  have hr : receive m (s.withPinsOf c) = finish (s.withPinsOf c).arrival := by
    rw [receive_hears (State.hears_withPinsOf hh c), if_pos hown, take_ignored _ h]
  exact completes_quiet (e := (s.withPinsOf c).arrival) hc hr
    ((State.arrived_phase _).trans (State.hears_withPinsOf hh c).1) rfl (State.arrival_owes _)

/-! ### Unknown kinds -/

/-- Settles O12: a message of node 0 whose kind is in no table is answered at once. -/
theorem unknownKindAnswered : Obligations.UnknownKindAnswered := by
  intro m s hh hdst hsrc hkind
  have hr : receive m s = finish (handAll [ctrlReply s.arrived m.tag .unknown .none] s.arrival) := by
    rw [receive_hears hh, if_pos hdst, take, hkind, hsrc]
    rfl
  have hreply : ctrlReply s.arrived m.tag .unknown .none = ⟨0, s.ring.ownNode, 0x28, m.tag, [1, 0]⟩ := by
    rw [ctrlReply, ownMessage, State.arrived_ownNode]
    rfl
  rw [hreply] at hr
  exact ⟨_, congrArg Host.Outcome.next hr,
    finish_delivers (e := s.arrival) ((State.arrived_phase s).trans hh.1) s.arrival_owes⟩

/-! ### Own messages that come round the ring -/

/-- A good own message is stripped (R149). -/
theorem receive_own {s : State} {m : Message} (hp : s.phase = .running) (hg : goodMessage m = true)
    (ho : m.src = s.ring.ownNode ∨ some m.src = s.ring.formerNode) : receive m s = finish (stripped m s.arrival) := by
  have hown : m.src = s.arrival.s.ring.ownNode ∨ some m.src = s.arrival.s.ring.formerNode := by
    rwa [State.arrival_s, State.arrived_ownNode, State.arrived_formerNode]
  have hgood : goodReceived m (Ev.start s) = stripped m s.arrival := by
    rw [goodReceived, show (Ev.start s).s.ring = s.ring from rfl, State.arrival_eq, dispose, if_pos hown]
  rw [receive, if_pos (show goodHeader m = true from hg), event_running hp, hgood]

theorem stripped_order {m : Message} (e : Ev) (h : m.kind = 0x10 ∨ m.kind = 0x11 ∨ m.kind = 0x12 ∨ m.kind = 0x13) :
    stripped m e = raiseCause .noTaker (logAlert .noTaker 0 0 0 (kindDst m) e) := by
  have of_kind (k : Kind) (hk : m.kind = k.code) : Kind.ofCode m.kind = some k := (Kind.ofCode_iff _ _).mpr hk.symm
  rw [stripped]
  rcases h with hk | hk | hk | hk
  · rw [of_kind .feed hk]
  · rw [of_kind .casein hk]
  · rw [of_kind .press hk]
  · rw [of_kind .jacket hk]

theorem stripped_discarded {m : Message} (e : Ev)
    (h : ¬ (m.kind = 0x10 ∨ m.kind = 0x11 ∨ m.kind = 0x12 ∨ m.kind = 0x13 ∨ m.kind = 0x30)) : stripped m e = e := by
  rw [stripped]
  cases hk : Kind.ofCode m.kind with
  | none => rfl
  | some k =>
    have hcode := Kind.code_of_ofCode hk
    cases k with
    | feed => exact absurd (.inl hcode.symm) h
    | casein => exact absurd (.inr (.inl hcode.symm)) h
    | press => exact absurd (.inr (.inr (.inl hcode.symm))) h
    | jacket => exact absurd (.inr (.inr (.inr (.inl hcode.symm)))) h
    | proof => exact absurd (.inr (.inr (.inr (.inr hcode.symm)))) h
    | _ => rfl

/-- Settles O13: an own order logs and raises NO_TAKER, any other own message but PROOF is only received. -/
theorem strippedMessages : Obligations.StrippedMessages := by
  intro m s hp hg ho
  have running : s.arrived.phase = .running := (State.arrived_phase s).trans hp
  refine ⟨fun hk => ?_, fun hk => ?_⟩
  · intro v
    refine ⟨_, congrArg Host.Outcome.next ((receive_own hp hg ho).trans (congrArg finish (stripped_order _ hk))), ?_⟩
    rw [kindDst_eq]
    exact finish_raiseCause (e := logAlert .noTaker 0 0 0 _ s.arrival) rfl rfl running
      (Ev.owes_logAlert s.arrival_owes ..)
  · refine ⟨_, congrArg Host.Outcome.next ((receive_own hp hg ho).trans (congrArg finish (stripped_discarded _ hk))), ?_⟩
    exact finish_delivers (e := s.arrival) (ms := []) running s.arrival_owes

/-! ### The transmitter -/

theorem RingPort.choose_busy {r : RingPort} (h : r.tx ≠ .idle) : r.choose = r := by
  unfold RingPort.choose
  split
  case h_1 htx _ => exact absurd htx h
  case h_2 htx _ _ => exact absurd htx h
  case h_3 => rfl

theorem RingPort.choose_forward {r : RingPort} {m : Message} {f : List Message} (h : r.tx = .idle)
    (hf : r.forward = m :: f) : r.choose = { r with forward := f, tx := .forwarding m } := by
  rw [RingPort.choose, h, hf]

theorem RingPort.choose_outbound {r : RingPort} {m : Message} {q : List Message} (h : r.tx = .idle)
    (hf : r.forward = []) (hq : r.outbound = m :: q) : r.choose = { r with outbound := q, tx := .own m } := by
  rw [RingPort.choose, h, hf, hq]

theorem RingPort.choose_idle {r : RingPort} (hf : r.forward = []) (hq : r.outbound = []) : r.choose = r := by
  unfold RingPort.choose
  split
  case h_1 hx => rw [hf] at hx; cases hx
  case h_2 hx => rw [hq] at hx; cases hx
  case h_3 => rfl

theorem isProof15_iff (m : Message) : isProof15 m = true ↔ m.kind = 0x30 ∧ m.tag = 15 := by
  rw [isProof15, Bool.and_eq_true, beq_iff_eq, beq_iff_eq]
  rfl

/-- Settles O14: the choice of R153 on the queues as they stand, and on an idle transmitter after its message's end. -/
theorem transmitterChoosesNext : Obligations.TransmitterChoosesNext := by
  refine ⟨fun s ms => ?_, fun s hp hbusy => ?_⟩
  · intro waiting
    have hsend (r : RingPort) (hr : RingPort.choose { s.ring with outbound := waiting } = r) :
        s.sending ms = { s with ring := r } := congrArg (fun r => { s with ring := r }) hr
    refine ⟨fun h => hsend _ (RingPort.choose_busy h), fun h => ⟨fun f fs hf => ?_, fun q qs hf hq => ?_, fun hf hq => ?_⟩⟩
    · exact hsend _ (RingPort.choose_forward h hf)
    · exact hsend _ (RingPort.choose_outbound h hf hq)
    · have hout : s.ring.outbound = [] := (List.append_eq_nil_iff.mp hq).1
      rw [hsend _ (RingPort.choose_idle hf hq), hq, ← hout]
  · intro r
    have hdone : transmitted (Ev.start s) = ⟨{ s with ring := { r with tx := .idle } }, [], 0⟩ := by
      have hring : (Ev.start s).s.ring = s.ring := rfl
      rw [transmitted, hring]
      simp only [r]
      cases htx : s.ring.tx with
      | idle => exact absurd htx hbusy
      | forwarding m => rfl
      | own m =>
        simp only [← isProof15_iff]
        split <;> simp only [setRing, RingPort.startTimer, htx] <;> rfl
    have hr : r.forward = s.ring.forward ∧ r.outbound = s.ring.outbound := by
      simp only [r]
      split
      · split <;> exact ⟨rfl, rfl⟩
      · exact ⟨rfl, rfl⟩
    obtain ⟨hrf, hro⟩ := hr
    have hexec (x : RingPort) (hx : RingPort.choose { r with tx := .idle } = x) :
        exec .transmitComplete s = .next { s with ring := x } := by
      rw [exec, execTransmitComplete, event_silent hp hdone hp, State.sending, List.append_nil, ← hx]
    refine ⟨fun f fs hf => hexec _ ?_, fun q qs hf hq => hexec _ ?_, fun hf hq => hexec _ ?_⟩
    · exact RingPort.choose_forward rfl (hrf.trans hf)
    · exact RingPort.choose_outbound rfl (hrf.trans hf) (hro.trans hq)
    · exact RingPort.choose_idle (hrf.trans hf) (hro.trans hq)

end Sys2Proof.Machine
end

section
/-! SUPPORT. Run Control's requests that change the run state: START, HALT, RESUME, DRAIN and RESET (R130 to R138, R142). -/

namespace Sys2Proof.Machine

/-! ### From a request to its completion -/

/-- A request whose event ends by handing `ms` over completes with the state the event has made (R129). -/
theorem completes_request {s u : State} {c : Instr} {h : Envelope} {r : Request} {arg : Byte} {ms : List Message} {e : Ev}
    (hc : exec c s = .next (receive (h.message Kind.ctrl.code [r.code, arg]) s)) (ho : s.obeys h)
    (hr : ctrlRequest r h.tag arg s.arrival = handAll ms e) (hu : e.s = u) (hp : u.phase = s.arrived.phase)
    (howes : e.owes s.mu.log) : s.completes c u (ms ++ e.feedMessages) := by
  rw [receive_request ho, hr] at hc
  exact completes_of hc hu (hp.trans ((State.arrived_phase s).trans ho.1)) howes

/-! ### Entering RUN -/

theorem formPauses_feedMessages (e : Ev) : (formPauses e).feedMessages = e.feedMessages ++ e.s.pauseOrders := by
  simp only [formPauses, formFeed_feedMessages, List.append_assoc, State.pauseOrders]
  rfl

/-- In RUN the computed level of a feeder is that of its marks (R50). -/
theorem computedLevel_run {s : State} (h : s.rc.state = .run) (f : Feeder) : computedLevel s f = s.runLevels.of f := by
  rw [computedLevel, if_pos h]
  cases f <;> rfl

/-- An entry into RUN sets the computed levels and forms their three orders (R51). -/
theorem formComputed_run {e : Ev} (h : e.s.rc.state = .run) :
    (formComputed e).s = { e.s with feed := e.s.runLevels }
      ∧ (formComputed e).feedMessages = e.feedMessages ++ (State.lastOrders { e.s with feed := e.s.runLevels }) := by
  have hlevel (f : Feeder) (u : State) (hu : u.rc = e.s.rc ∧ u.queues = e.s.queues ∧ u.limits = e.s.limits) :
      computedLevel u f = e.s.runLevels.of f := by
    obtain ⟨hrc, hq, hl⟩ := hu
    rw [computedLevel_run (by rw [hrc]; exact h), State.runLevels, State.runLevels, hq, hl]
  have hformed : formComputed e = formFeed .jacket e.s.runLevels.jacket
      (formFeed .caseFeeder e.s.runLevels.cases (formFeed .block e.s.runLevels.block e)) := by
    unfold formComputed
    dsimp only
    rw [hlevel .block e.s ⟨rfl, rfl, rfl⟩,
      hlevel .caseFeeder (formFeed .block (e.s.runLevels.of .block) e).s ⟨rfl, rfl, rfl⟩,
      hlevel .jacket (formFeed .caseFeeder _ (formFeed .block (e.s.runLevels.of .block) e)).s ⟨rfl, rfl, rfl⟩]
    rfl
  rw [hformed]
  refine ⟨rfl, ?_⟩
  simp only [formFeed_feedMessages, List.append_assoc, State.lastOrders]
  rfl

/-- A request that enters RUN and answers OK (R131, R136): `v` is the state but for the entry itself. -/
theorem completes_enteringRun {s v : State} {c : Instr} {h : Envelope} {r : Request} {arg : Byte} {e : Ev}
    (hc : exec c s = .next (receive (h.message Kind.ctrl.code [r.code, arg]) s)) (ho : s.obeys h)
    (hr : ctrlRequest r h.tag arg s.arrival = answer h.tag .ok .none (formComputed (enterRun e)))
    (he : e = { s.arrival with s := v }) (hp : v.phase = s.arrived.phase) (hm : v.mu = s.arrived.mu) :
    s.completes c v.enteringRun (v.enteringRun.okReply h.tag :: v.enteringRun.lastOrders) := by
  subst he
  obtain ⟨hs, hfeeds⟩ := formComputed_run (e := enterRun { s.arrival with s := v }) rfl
  have horders : (formComputed (enterRun { s.arrival with s := v })).feedMessages = v.enteringRun.lastOrders := hfeeds
  have hanswer : ctrlRequest r h.tag arg s.arrival
      = handAll [v.enteringRun.okReply h.tag] (formComputed (enterRun { s.arrival with s := v })) := by
    rw [hr, answer, hs]
    rfl
  have hdone := completes_request hc ho hanswer hs hp
    (Ev.owes_of_eq s.arrival_owes ((congrArg State.mu hs).trans hm) rfl)
  rwa [horders] at hdone

/-! ### START -/

theorem startRefusal_calMissing {s : State} (h : s.ccu.valid = false) : startRefusal s = some .calMissing := by
  rw [startRefusal, h]
  rfl

/-- Past the calibration the tests of START are those of the line map, the active bank, the last proof and the link
(R130). -/
theorem startRefusal_calibrated {s : State} (h : s.ccu.valid = true) :
    startRefusal s = if ∀ r, s.lineMap.get r ≠ 0 then
        if ∃ i, (s.titles.activeBank.get i).key ≠ 0 then
          if s.ring.proofResult = .fail then some .proofFailed else if s.ring.link ≠ .up then some .linkDown else none
        else some .tableEmpty
      else some .mapIncomplete := by
  simp only [startRefusal, h, ← LineMap.complete_iff, ← Bank.hasTitle_iff]
  cases LineMap.complete s.lineMap <;> cases Bank.hasTitle s.titles.activeBank <;> simp

theorem ctrlStart_refused {e : Ev} {why : Reason} (tag : Byte) (hrun : e.s.rc.state = .config)
    (hproof : e.s.ring.proofRun = none) (hwhy : startRefusal e.s = some why) :
    ctrlStart tag e = answer tag .refused why e := by
  rw [ctrlStart, if_neg (by simp [hrun, hproof]), hwhy]

theorem ctrlStart_accepted {e : Ev} (tag : Byte) (hrun : e.s.rc.state = .config) (hproof : e.s.ring.proofRun = none)
    (hpass : startRefusal e.s = none) : ctrlStart tag e = answer tag .ok .none (formComputed (startRun e)) := by
  rw [ctrlStart, if_neg (by simp [hrun, hproof]), hpass]

/-- Settles O16: the tests of START in their order, and the entry into RUN past all of them. -/
theorem startRun_settles : Obligations.StartRun := by
  intro h arg s ho a complete hasTitle
  have refused (why : Reason) (hrun : a.rc.state = .config) (hproof : a.ring.proofRun = none)
      (hwhy : startRefusal a = some why) : s.onlyAnswers (.start h [arg]) h.tag .refused why :=
    onlyAnswers_request (r := .start) (exec_carried rfl s) ho (ctrlStart_refused h.tag hrun hproof hwhy)
  refine ⟨fun hstate => ?_, fun hrun hproof => ?_⟩
  · refine onlyAnswers_request (r := .start) (exec_carried rfl s) ho (if_pos ?_)
    exact hstate.imp_right fun hproof => Option.isSome_iff_ne_none.mpr hproof
  refine ⟨fun hcal => ?_, fun hcal hmap => ?_, fun hcal hmap htitle => ?_, fun hcal hmap htitle hfail => ?_,
    fun hcal hmap htitle hfail hlink => ?_, fun hcal hmap htitle hfail hlink => ?_⟩
  · exact refused _ hrun hproof (startRefusal_calMissing hcal)
  · exact refused _ hrun hproof ((startRefusal_calibrated hcal).trans (if_neg hmap))
  · exact refused _ hrun hproof (by rw [startRefusal_calibrated hcal, if_pos hmap, if_neg htitle])
  · exact refused _ hrun hproof (by rw [startRefusal_calibrated hcal, if_pos hmap, if_pos htitle, if_pos hfail])
  · exact refused _ hrun hproof
      (by rw [startRefusal_calibrated hcal, if_pos hmap, if_pos htitle, if_neg hfail, if_pos hlink])
  · have hpass : startRefusal a = none := by
      rw [startRefusal_calibrated hcal, if_pos hmap, if_pos htitle, if_neg hfail, if_neg (not_not_intro hlink)]
    exact completes_enteringRun (r := .start) (exec_carried rfl s) ho (ctrlStart_accepted h.tag hrun hproof hpass)
      rfl rfl rfl

/-! ### HALT and RESUME -/

/-- The tests on leaving HALT: the link where it is a cause, then the waiting messages (R136, R137). -/
theorem leaveHaltRefusal_eq (s : State) :
    leaveHaltRefusal s = if s.rc.causes.link = false ∨ s.ring.link = .up then
        if 16 < s.ring.outbound.length then some (.busy, .none) else none
      else some (.refused, .causePersists) := by
  rw [leaveHaltRefusal]
  cases s.rc.causes.link <;> cases s.ring.link <;> rfl

theorem leaveHaltRefusal_link {s : State} (hcause : s.rc.causes.link = true) (hlink : s.ring.link ≠ .up) :
    leaveHaltRefusal s = some (.refused, .causePersists) :=
  (leaveHaltRefusal_eq s).trans (if_neg (by simp [hcause, hlink]))

theorem leaveHaltRefusal_busy {s : State} (hlink : s.rc.causes.link = false ∨ s.ring.link = .up)
    (hbusy : 16 < s.ring.outbound.length) : leaveHaltRefusal s = some (.busy, .none) := by
  rw [leaveHaltRefusal_eq, if_pos hlink, if_pos hbusy]

theorem leaveHaltRefusal_none {s : State} (hlink : s.rc.causes.link = false ∨ s.ring.link = .up)
    (hroom : s.ring.outbound.length ≤ 16) : leaveHaltRefusal s = none := by
  rw [leaveHaltRefusal_eq, if_pos hlink, if_neg (by omega)]

theorem ctrlResume_refused {e : Ev} {st : Status} {why : Reason} (tag : Byte) (h : e.s.rc.state = .halt)
    (hwhy : leaveHaltRefusal e.s = some (st, why)) : ctrlResume tag e = answer tag st why e := by
  rw [ctrlResume, if_neg (not_not_intro h), hwhy]

theorem ctrlResume_accepted {e : Ev} (tag : Byte) (h : e.s.rc.state = .halt) (hpass : leaveHaltRefusal e.s = none) :
    ctrlResume tag e = answer tag .ok .none (formComputed (enterRun e)) := by
  rw [ctrlResume, if_neg (not_not_intro h), hpass]

/-- A halt by a cause: the cause set is the cause alone and STOP_N low (R132, R133). -/
theorem State.caused_rc {c : Cause} {s : State} (h : s.rc.state = .run ∨ s.rc.state = .drain) :
    (s.caused c).rc = ⟨.halt, CauseSet.empty.add c, .low⟩ := by
  unfold State.caused
  rcases h with h | h <;> rw [h] <;> rfl

/-- Settles O17: HALT raises MASTER where the line moves, RESUME re-enters RUN past its two tests. -/
theorem haltAndResume : Obligations.HaltAndResume := by
  intro h arg s ho a
  have refused (st : Status) (why : Reason) (hhalt : a.rc.state = .halt) (hwhy : leaveHaltRefusal a = some (st, why)) :
      s.onlyAnswers (.resume h [arg]) h.tag st why :=
    onlyAnswers_request (r := .resume) (exec_carried rfl s) ho (ctrlResume_refused h.tag hhalt hwhy)
  refine ⟨fun hstate => ?_, fun hstate => ?_, fun hstate => ?_, fun hhalt hcause hlink => ?_,
    fun hhalt hlink hbusy => ?_, fun hhalt hlink hroom => ?_⟩
  · intro u
    have hraised : ctrlRequest .halt h.tag arg s.arrival = handAll [u.okReply h.tag] (raiseCause .master s.arrival) := by
      have hanswer : ctrlHalt h.tag s.arrival = answer h.tag .ok .none (raiseCause .master s.arrival) := if_pos hstate
      rw [ctrlRequest, hanswer, answer, raiseCause_s]
      rfl
    have horders : (raiseCause .master s.arrival).feedMessages = a.causeOrders := by
      simp only [Ev.feedMessages, raiseCause_s, raiseCause_feeds, State.arrival_feeds, List.nil_append,
        State.caused_feedOrder]
      exact State.causeFeeds_messages a
    have hdone := completes_request (c := .halt h [arg]) (r := .halt) (exec_carried rfl s) ho hraised (raiseCause_s _ _)
      (State.caused_phase _ _) (Ev.owes_raiseCause s.arrival_owes _)
    rw [horders] at hdone
    exact ⟨hdone, State.caused_rc hstate⟩
  · refine onlyAnswers_request (r := .halt) (exec_carried rfl s) ho (if_neg ?_)
    rw [State.arrival_s]
    rcases hstate with hstate | hstate <;> rw [hstate] <;> decide
  · exact onlyAnswers_request (r := .resume) (exec_carried rfl s) ho (if_pos hstate)
  · exact refused _ _ hhalt (leaveHaltRefusal_link hcause hlink)
  · exact refused _ _ hhalt (leaveHaltRefusal_busy hlink hbusy)
  · exact completes_enteringRun (r := .resume) (v := a) (exec_carried rfl s) ho
      (ctrlResume_accepted h.tag hhalt (leaveHaltRefusal_none hlink hroom)) rfl rfl rfl

/-! ### DRAIN -/

theorem ctrlDrain_run {e : Ev} (tag : Byte) (h : e.s.rc.state = .run) :
    ctrlDrain tag e = computeLevels e.s.queues (checkDrain (answer tag .ok .none (formPauses (enterDrain e)))) := by
  rw [ctrlDrain, h]

theorem ctrlDrain_refused {e : Ev} {st : Status} {why : Reason} (tag : Byte) (h : e.s.rc.state = .halt)
    (hwhy : leaveHaltRefusal e.s = some (st, why)) : ctrlDrain tag e = answer tag st why e := by
  rw [ctrlDrain, h]
  simp only [hwhy]

theorem ctrlDrain_halt {e : Ev} (tag : Byte) (h : e.s.rc.state = .halt) (hpass : leaveHaltRefusal e.s = none) :
    ctrlDrain tag e = computeLevels e.s.queues (checkDrain (answer tag .ok .none (enterDrain e))) := by
  rw [ctrlDrain, h]
  simp only [hpass]

theorem ctrlDrain_still {e : Ev} (tag : Byte) (h : e.s.rc.state = .config ∨ e.s.rc.state = .drain) :
    ctrlDrain tag e = answer tag .state .none e := by
  rw [ctrlDrain]
  rcases h with h | h <;> rw [h]

/-- The feed level computations of an event that left the queues as it found them come to nothing (R50). -/
theorem computeLevels_of_queues {q : Queues} {e : Ev} (h : e.s.queues = q) : computeLevels q e = e := by
  have same (f : Feeder) : levelIfChanged q f e = e := if_pos (by rw [h])
  rw [computeLevels, same, same, same]

/-- A check for drain completion finds something to drain (R138). -/
theorem checkDrain_held {e : Ev} (h : e.s.queues.drained ≠ true) : checkDrain e = e := if_neg fun hd => h hd.2

/-- An accepted DRAIN that finds something held ends with its REPLY (R137). -/
theorem drain_held {e : Ev} {v : State} (tag : Byte) (hv : e.s = v) (h : v.queues.drained ≠ true) :
    computeLevels v.queues (checkDrain (answer tag .ok .none e)) = handAll [v.okReply tag] e := by
  subst hv
  have hqueues : (answer tag .ok .none e).s.queues = e.s.queues := State.sameButSending_queues (hand_same _ e)
  rw [checkDrain_held (by rwa [hqueues]), computeLevels_of_queues hqueues]
  rfl

/-- The exit from RUN into DRAIN: the feeders at PAUSE (R51, R137). -/
theorem formPauses_enterDrain_s (e : Ev) : (formPauses (enterDrain e)).s
    = { e.s with rc := ⟨.drain, CauseSet.empty, .released⟩, feed := ⟨.pause, .pause, .pause⟩ } := rfl

theorem formPauses_enterDrain_feedMessages {e : Ev} (hf : e.feeds = []) :
    (formPauses (enterDrain e)).feedMessages = e.s.pauseOrders := by
  have hnone : (enterDrain e).feedMessages = [] := by
    rw [Ev.feedMessages, show (enterDrain e).feeds = [] from hf, List.flatMap_nil]
  rw [formPauses_feedMessages, hnone]
  rfl

/-- PAUSE orders depend on the own node and the line map alone. -/
theorem State.pauseOrders_congr {s t : State} (hn : t.ring.ownNode = s.ring.ownNode) (hl : t.lineMap = s.lineMap) :
    t.pauseOrders = s.pauseOrders := by
  simp only [State.pauseOrders, State.feedOrder, ownMessage, hn, hl]

theorem Ev.owes_formPauses_enterDrain {before : List Alert} {e : Ev} (h : e.owes before) :
    (formPauses (enterDrain e)).owes before := Ev.owes_of_eq h rfl rfl

/-- The event of a completed drain before its tallies join (R138). -/
def Ev.drainedOut (e : Ev) : Ev :=
  enterConfig (logAlert .drained 0 0 0 (BitVec.ofNat 16 e.s.leftovers.length)
    { e with s := { e.s with
      queues := { e.s.queues with cq := [], jq := [] }
      totals := e.s.totals.talliedAll e.s.leftovers } })

theorem Ev.drainedOut_s (e : Ev) : e.drainedOut.s = e.s.drainedOut := by
  rw [Ev.drainedOut, leftovers_length]
  rfl

theorem Ev.owes_drainedOut {before : List Alert} {e : Ev} (h : e.owes before) : e.drainedOut.owes before := by
  let emptied : Ev := { e with s := { e.s with
    queues := { e.s.queues with cq := [], jq := [] }
    totals := e.s.totals.talliedAll e.s.leftovers } }
  have logged : (logAlert .drained 0 0 0 (BitVec.ofNat 16 e.s.leftovers.length) emptied).owes before :=
    Ev.owes_logAlert (Ev.owes_of_eq (e' := emptied) h rfl rfl) ..
  exact Ev.owes_of_eq logged rfl rfl

/-- With room for its REPLY a DRAIN that finds nothing to drain completes: the REPLY, then the tallies of the leftovers
(R138). -/
theorem checkDrain_answered {e : Ev} (tag : Byte) (hroom : e.s.ring.outbound.length < 32) (hrun : e.s.rc.state = .drain)
    (hempty : e.s.queues.drained = true) :
    checkDrain (answer tag .ok .none e)
      = handAll (e.s.okReply tag :: e.s.leftovers.map (tallyMessage e.s)) e.drainedOut := by
  have hjoined (x : Ev) (hx : x.s.ring.outbound.length < 32) : hand (e.s.okReply tag) x = x.joined [e.s.okReply tag] :=
    hand_room hx
  have hanswer : answer tag .ok .none e = e.joined [e.s.okReply tag] := hjoined e hroom
  rw [handAll, hjoined e.drainedOut hroom, hanswer, checkDrain, if_pos ⟨hrun, hempty⟩, completeDrain_eq]
  rfl

/-- A DRAIN that completes at once: outside RUN with the feeders at PAUSE the feed levels stay (R50, R138). -/
theorem completes_drained {s v : State} {c : Instr} {h : Envelope} {arg : Byte} {before : Queues} {e : Ev}
    (hc : exec c s = .next (receive (h.message Kind.ctrl.code [Request.drain.code, arg]) s)) (ho : s.obeys h)
    (hr : ctrlRequest .drain h.tag arg s.arrival = computeLevels before (checkDrain (answer h.tag .ok .none e)))
    (hv : e.s = v) (hroom : v.ring.outbound.length < 32) (hrun : v.rc.state = .drain)
    (hempty : v.queues.drained = true) (howes : e.owes s.mu.log) (hp : v.phase = .running)
    (hpaused : v.feed = FeedLevels.paused) :
    s.completes c v.drainedOut
      (v.drainedOut.okReply h.tag :: v.leftovers.map (tallyMessage v.drainedOut) ++ e.feedMessages) := by
  subst hv
  obtain ⟨hlevels, horders⟩ := State.relevelled_paused (s := e.s.drainedOut) hpaused (by exact (by decide : RunState.config ≠ .run)) before
  rw [receive_request ho, hr, checkDrain_answered h.tag hroom hrun hempty] at hc
  refine ⟨_, hc, ?_, fun hfits => ?_⟩
  · rw [← Ev.drainedOut_s]
    exact State.sameButSending_trans (handAll_same _ _) (State.sameButSending_trans (computeLevels_same _ _) (finish_same _))
  · have sent := computeLevels_room (s := s) (e := e.drainedOut) (before := before)
      (ms := e.s.okReply h.tag :: e.s.leftovers.map (tallyMessage e.s)) hp (Ev.owes_drainedOut howes)
    simp only [Ev.drainedOut_s, hlevels, horders, List.append_nil] at sent
    exact sent hfits

/-- Settles O18: DRAIN's tests in order; with something held it answers, with nothing left it completes the drain. -/
theorem drainAccepted : Obligations.DrainAccepted := by
  intro h arg s ho a rc mayLeave empty
  have running : a.phase = .running := (State.arrived_phase s).trans ho.1
  have hdrained : a.queues.drained = true ↔ empty := by
    rw [Queues.drained_iff]
    tauto
  have refused (st : Status) (why : Reason) (hhalt : a.rc.state = .halt) (hwhy : leaveHaltRefusal a = some (st, why)) :
      s.onlyAnswers (.drain h [arg]) h.tag st why :=
    onlyAnswers_request (r := .drain) (exec_carried rfl s) ho (ctrlDrain_refused h.tag hhalt hwhy)
  have fromHalt (hleave : mayLeave) : ctrlRequest .drain h.tag arg s.arrival
      = computeLevels a.queues (checkDrain (answer h.tag .ok .none (enterDrain s.arrival))) := by
    obtain ⟨hhalt, hlink, hroom⟩ := hleave
    exact ctrlDrain_halt h.tag hhalt (leaveHaltRefusal_none hlink hroom)
  refine ⟨fun hstate => ?_, fun hhalt hcause hlink => ?_, fun hhalt hlink hbusy => ?_, fun hrun hheld => ?_,
    fun hleave hheld => ?_, fun hrun hempty hroom => ?_, fun hleave hempty hpaused => ?_, rfl⟩
  · exact onlyAnswers_request (r := .drain) (exec_carried rfl s) ho (ctrlDrain_still h.tag hstate)
  · exact refused _ _ hhalt (leaveHaltRefusal_link hcause hlink)
  · exact refused _ _ hhalt (leaveHaltRefusal_busy hlink hbusy)
  · intro u
    have hevent : ctrlRequest .drain h.tag arg s.arrival
        = handAll [u.okReply h.tag] (formPauses (enterDrain s.arrival)) :=
      (ctrlDrain_run h.tag hrun).trans
        (drain_held (v := u) h.tag (formPauses_enterDrain_s s.arrival) fun hd => hheld (hdrained.mp hd))
    have hdone := completes_request (c := .drain h [arg]) (exec_carried rfl s) ho hevent
      (formPauses_enterDrain_s s.arrival) rfl (Ev.owes_formPauses_enterDrain s.arrival_owes)
    have horders : (formPauses (enterDrain s.arrival)).feedMessages = u.pauseOrders :=
      (formPauses_enterDrain_feedMessages s.arrival_feeds).trans (State.pauseOrders_congr rfl rfl)
    rw [horders] at hdone
    exact hdone
  · have hevent : ctrlRequest .drain h.tag arg s.arrival
        = handAll [State.okReply { a with rc := rc } h.tag] (enterDrain s.arrival) :=
      (fromHalt hleave).trans (drain_held (v := { a with rc := rc }) h.tag rfl fun hd => hheld (hdrained.mp hd))
    exact completes_request (c := .drain h [arg]) (exec_carried rfl s) ho hevent rfl rfl
      (Ev.owes_of_eq s.arrival_owes rfl rfl)
  · intro u
    have hdone := completes_drained (c := .drain h [arg]) (exec_carried rfl s) ho (ctrlDrain_run h.tag hrun)
      (formPauses_enterDrain_s s.arrival) hroom rfl (hdrained.mpr hempty)
      (Ev.owes_formPauses_enterDrain s.arrival_owes) running rfl
    have horders : (formPauses (enterDrain s.arrival)).feedMessages = u.pauseOrders :=
      (formPauses_enterDrain_feedMessages s.arrival_feeds).trans (State.pauseOrders_congr rfl rfl)
    rw [horders] at hdone
    exact hdone
  · have hroom : a.ring.outbound.length < 32 := by
      obtain ⟨-, -, hroom⟩ := hleave
      omega
    have hdone := completes_drained (v := { a with rc := rc }) (c := .drain h [arg]) (exec_carried rfl s) ho
      (fromHalt hleave) rfl hroom rfl (hdrained.mpr hempty) (Ev.owes_of_eq s.arrival_owes rfl rfl) running hpaused
    rw [show (enterDrain s.arrival).feedMessages = [] from rfl, List.append_nil] at hdone
    exact hdone

/-! ### RESET -/

theorem IronMonitor.reset_eq (t : Table Comparator 4) :
    IronMonitor.reset (t.map Comparator.config)
      = ⟨t.map fun c => ⟨c.config, false, 0⟩, ⟨.stale, 0⟩, ⟨.stale, 0⟩⟩ := by
  rw [IronMonitor.reset, Table.map_map]
  rfl

/-- Settles O22: the event of a RESET is the line reset with its REPLY and the three FEED PAUSE orders, for which the
outbound queue has room. -/
theorem lineResetKeepsSettings : Obligations.LineResetKeepsSettings := by
  intro h arg s ho a u
  have hstate : (ctrlReset h.tag s.arrival).s = u := by
    have hreset : (ctrlReset h.tag s.arrival).s
        = { a.lineReset (a.okReply h.tag) with feed := ⟨.pause, .pause, .pause⟩ } := rfl
    rw [hreset, State.lineReset, IronMonitor.reset_eq]
    rfl
  have horders : (ctrlReset h.tag s.arrival).feedMessages = u.pauseOrders := by
    rw [ctrlReset, formPauses_feedMessages]
    rfl
  have hdue : (ctrlReset h.tag s.arrival).alertsDue = 0 := rfl
  have hfew : u.pauseOrders.length ≤ 3 := by
    simp only [State.pauseOrders, State.feedOrder, List.length_append]
    split <;> split <;> split <;> simp
  have hexec : exec (.reset h [arg]) s = .next (finish (ctrlReset h.tag s.arrival)) :=
    (exec_carried rfl s).trans (congrArg Host.Outcome.next (receive_request (r := .reset) ho arg))
  have hone : u.ring.outbound.length = 1 := rfl
  rw [hexec, finish_room (by rw [hstate]; exact (State.arrived_phase s).trans ho.1), horders, hdue, hstate]
  · rw [List.replicate_zero, List.append_nil]
  · rw [hstate, horders, hdue, hone]
    omega

end Sys2Proof.Machine
end

section
/-! SUPPORT. STORE (R172, R173), the proof run (R156, R157), and malformed requests (R129). -/

namespace Sys2Proof.Machine

/-! ### STORE -/

/-- Events that only change the state and log a record: they complete with what they have made. -/
theorem completes_event {s u : State} {c : Instr} {f : Ev → Ev} {e : Ev} (hx : exec c s = .next (event f s))
    (hp : s.phase = .running) (hf : f (Ev.start s) = e) (hu : e.s = u) (hpu : u.phase = .running) (hfeeds : e.feeds = [])
    (howes : e.owes s.mu.log) : s.completes c u [] := by
  rw [event_running hp, hf] at hx
  have hdone := completes_of (ms := []) hx hu hpu howes
  rwa [Ev.feedMessages, hfeeds] at hdone

/-- An event that does nothing only lets an idle transmitter begin a message (R153). -/
theorem event_nothing {s : State} {f : Ev → Ev} (hp : s.phase = .running) (hf : f (Ev.start s) = Ev.start s) :
    event f s = s.sending [] := event_silent hp hf hp

theorem storeDone_idle {e : Ev} (h : e.s.store.op = .idle) : storeDone e = e := by
  rw [storeDone, h]

theorem storeDone_inFlight {e : Ev} {w : Settings} (h : e.s.store.op = .inFlight w) :
    storeDone e = logAlert .storeDone 0 0 0 7 { e with s := { e.s with store := e.s.store.ended 7 w } } := by
  rw [storeDone, h]

theorem ComparatorConfig.record_eq (c : ComparatorConfig) :
    c.record = ⟨if c.direction = .above then 0 else 1, if c.enable then 1 else 0, c.confirm, c.onThreshold,
      c.offThreshold⟩ := by
  obtain ⟨d, _, _, _, _⟩ := c
  cases d <;> rfl

theorem ctrlStore_accepted {e : Ev} (tag : Byte) (hidle : e.s.store.op = .idle)
    (hrun : e.s.rc.state = .config ∨ e.s.rc.state = .run) :
    ctrlStore tag e = answer tag .ok .none { e with s := { e.s with store := e.s.store.begin e.s.settings } } := by
  rw [ctrlStore, if_neg (not_not_intro hidle), if_neg]
  rcases hrun with hrun | hrun <;> rw [hrun] <;> decide

/-- Settles O24: STORE's tests in order, the snapshot, and the end of a STORE in flight or of none. -/
theorem storeTakesSnapshot : Obligations.StoreTakesSnapshot := by
  intro h arg s
  refine ⟨fun ho => ?_, fun hp w hw => ?_, fun hp hidle => ?_⟩
  · intro a
    refine ⟨fun hbusy => ?_, fun hidle hstate => ?_, fun hidle hrun => ?_⟩
    · exact onlyAnswers_request (r := .store) (exec_carried rfl s) ho (if_pos hbusy)
    · exact onlyAnswers_request (r := .store) (exec_carried rfl s) ho
        ((if_neg (not_not_intro hidle)).trans (if_pos hstate))
    · intro snapshot g u
      have hsnapshot : snapshot = a.settings := by
        have hcomparators : a.iron.comparators.map (fun c : Comparator => c.config.record) = snapshot.comparators :=
          congrArg (Table.map · a.iron.comparators) (funext fun c => ComparatorConfig.record_eq c.config)
        rw [State.settings, hcomparators]
        rfl
      have hu : u = { a with store := a.store.begin a.settings } := by
        rw [← hsnapshot]
        rfl
      rw [hu]
      exact completes_okReply (r := .store) (exec_carried rfl s) ho (ctrlStore_accepted h.tag hidle hrun) rfl rfl
  · intro u
    refine completes_event (c := .storeDone) rfl hp (storeDone_inFlight hw) rfl hp rfl ?_
    exact Ev.owes_logAlert (e := { Ev.start s with s := { s with store := s.store.ended 7 w } })
      (Ev.owes_of_eq (Ev.owes_start s) rfl rfl) ..
  · exact congrArg Host.Outcome.next (event_nothing hp (storeDone_idle hidle))

/-! ### The proof run begins -/

/-- Settles O25: PROOF's tests in order; past them the REPLY and the sixteen messages are handed over together. -/
theorem proofRunBegins : Obligations.ProofRunBegins := by
  intro h arg s ho a
  have hsome : s.arrival.s.ring.proofRun.isSome = true ↔ a.ring.proofRun ≠ none := Option.isSome_iff_ne_none
  refine ⟨fun hbusy => ?_, fun hfree hrun => ?_, fun hfree hrun hlink => ?_, fun hfree hrun hlink => ?_⟩
  · exact onlyAnswers_request (r := .proof) (exec_carried rfl s) ho (if_pos (hsome.mpr hbusy))
  · exact onlyAnswers_request (r := .proof) (exec_carried rfl s) ho
      ((if_neg fun hb => hsome.mp hb hfree).trans (if_pos hrun))
  · exact onlyAnswers_request (r := .proof) (exec_carried rfl s) ho
      ((if_neg fun hb => hsome.mp hb hfree).trans ((if_neg (not_not_intro hrun)).trans (if_pos hlink)))
  · intro u
    have hevent : ctrlRequest .proof h.tag arg s.arrival
        = handAll (u.okReply h.tag :: proofMessages u) { s.arrival with s := u } :=
      (if_neg fun hb => hsome.mp hb hfree).trans
        ((if_neg (not_not_intro hrun)).trans (if_neg (not_not_intro hlink)))
    have hdone := completes_request (c := .proof h [arg]) (exec_carried rfl s) ho hevent rfl rfl
      (Ev.owes_of_eq s.arrival_owes rfl rfl)
    rw [show (Ev.feedMessages { s.arrival with s := u }) = [] from rfl, List.append_nil] at hdone
    exact hdone

/-! ### The proof run ends -/

/-- A payload of 33 bytes is that of the PROOF message of its index exactly when its pattern is (R156, R157). -/
theorem proofPayload_eq_iff {p : List Byte} (hlen : p.length = 33) :
    p = proofPayload (natAt1 p 0) ↔ ∀ j, j < 32 → byteAt p (j + 1) = BitVec.ofNat 8 (natAt1 p 0 * 17 + j) := by
  obtain ⟨b, rest, rfl⟩ := List.exists_cons_of_length_pos (l := p) (by omega)
  have hrest : rest.length = 32 := by simpa using hlen
  have hindex : natByte (natAt1 (b :: rest) 0) = b := natByte_of_toNat b
  have hbyte (j : Nat) : byteAt (b :: rest) (j + 1) = rest.getD j 0 := rfl
  rw [proofPayload, hindex, List.cons_inj_right]
  constructor
  · intro hpattern j hj
    have hsent := congrArg (fun l => List.getD l j 0) hpattern
    rw [hbyte]
    simpa [proofByte, List.getD_eq_getElem _ _ (hrest ▸ hj), hj] using hsent
  · intro hpattern
    refine List.ext_getElem (by simpa using hrest) fun j hj _ => ?_
    have := hpattern j (by omega)
    rw [hbyte, List.getD_eq_getElem _ _ hj] at this
    rw [this]
    simp [proofByte]

/-- A returned PROOF is intact when its length, tag and pattern agree (R157). -/
theorem proofIntact_iff (m : Message) :
    proofIntact m = true ↔ m.payload.length = 33 ∧ natAt1 m.payload 0 ≤ 15 ∧ byteAt m.payload 0 = m.tag
      ∧ ∀ j, j < 32 → byteAt m.payload (j + 1) = BitVec.ofNat 8 (natAt1 m.payload 0 * 17 + j) := by
  simp only [proofIntact, Bool.and_eq_true, decide_eq_true_iff, beq_iff_eq, and_assoc]
  refine and_congr_right fun hlen => ?_
  rw [proofPayload_eq_iff hlen]

/-- Among sixteen indices those not intact are the rest of those intact (R157). -/
theorem Table.count_true_false {n : Nat} (t : Table Bool n) : n - t.list.count true = t.list.count false := by
  have hall : t.list.count true + t.list.count false = n := (List.count_true_add_count_false _).trans t.len
  omega

theorem all_id_iff_count_false (l : List Bool) : l.all id = true ↔ l.count false = 0 := by
  rw [List.count_eq_zero, List.all_eq_true]
  refine ⟨fun h hf => Bool.false_ne_true (h _ hf), fun h b hb => ?_⟩
  cases b with
  | true => rfl
  | false => exact absurd hb h

theorem endProof_eq (run : ProofRun) (e : Ev) :
    (endProof run e).s = e.s.proofEnded run ∧ (endProof run e).feeds = e.feeds := by
  refine ⟨?_, rfl⟩
  have hresult : (if run.intact.list.count false = 0 then ProofResult.pass else .fail)
      = if run.intact.list.all id then .pass else .fail := by
    simp only [all_id_iff_count_false]
  simp only [endProof, Table.count_true_false, hresult]
  rfl

theorem Ev.owes_endProof {before : List Alert} {e : Ev} (h : e.owes before) (run : ProofRun) :
    (endProof run e).owes before :=
  Ev.owes_logAlert (e := { e with s := { e.s with ring := _ } }) (Ev.owes_of_eq h rfl rfl) ..

/-- A message of kind PROOF that comes back to the part is compared (R151). -/
theorem receive_proof {s : State} {h : Envelope} {p : List Byte} (hp : s.phase = .running)
    (hg : goodMessage (h.message 0x30 p) = true) (hown : h.src = s.ring.ownNode ∨ some h.src = s.ring.formerNode) :
    receive (h.message 0x30 p) s = finish (proofReturned (h.message 0x30 p) s.arrival) :=
  receive_own hp hg hown

theorem proofReturned_run {e : Ev} {m : Message} {run r : ProofRun} (hrun : e.s.ring.proofRun = some run)
    (hr : r = if proofIntact m then { run with intact := run.intact.set (Fin.ofNat 16 (natAt1 m.payload 0)) true } else run) :
    proofReturned m e = if m.payload ≠ [] ∧ natAt1 m.payload 0 = 15
      then endProof r { e with s := { e.s with ring := { e.s.ring with proofRun := some r } } }
      else { e with s := { e.s with ring := { e.s.ring with proofRun := some r } } } := by
  rw [proofReturned, hrun, hr]

/-- A message of the part's own that comes back and forms none completes with the state it leaves. -/
theorem completes_returned {s u : State} {h : Envelope} {p : List Byte} {e : Ev}
    (hr : receive (h.message 0x30 p) s = finish e) (hu : e.s = u) (hpu : u.phase = .running) (hf : e.feeds = [])
    (howes : e.owes s.mu.log) : s.completes (.proofReturn h p) u [] := by
  subst hu
  exact completes_quiet (c := .proofReturn h p) rfl hr hpu hf howes

/-- Settles O26: the return of a PROOF by its comparison and index, and the timer. -/
theorem proofRunEnds : Obligations.ProofRunEnds := by
  intro h p s hp
  refine ⟨fun hg hown => ?_, fun run hrun htimer => ?_, fun hquiet => ?_⟩
  · intro a intact
    have running : a.phase = .running := (State.arrived_phase s).trans hp
    have hr := receive_proof hp hg hown
    refine ⟨fun hnone => ?_, fun run r hrun hyes hno => ?_⟩
    · have hdiscard : proofReturned (h.message 0x30 p) s.arrival = s.arrival := by
        rw [proofReturned, show s.arrival.s.ring.proofRun = none from hnone]
      exact completes_returned (hr.trans (congrArg finish hdiscard)) rfl running rfl s.arrival_owes
    · have hmarked : r = if proofIntact (h.message 0x30 p)
          then { run with intact := run.intact.set (Fin.ofNat 16 (natAt1 p 0)) true } else run := by
        by_cases hi : proofIntact (h.message 0x30 p) = true
        · rw [if_pos hi, hyes ((proofIntact_iff _).mp hi)]
        · rw [if_neg hi, hno fun hc => hi ((proofIntact_iff _).mpr hc)]
      have hreturn := hr.trans (congrArg finish (proofReturned_run (e := s.arrival) hrun hmarked))
      refine ⟨fun hlast => ?_, fun hne hlast => ?_⟩
      · exact completes_returned (hreturn.trans (congrArg finish (if_neg hlast))) rfl running rfl
          (Ev.owes_of_eq s.arrival_owes rfl rfl)
      · have hended := hreturn.trans (congrArg finish (if_pos ⟨hne, hlast⟩))
        exact completes_returned hended (endProof_eq _ _).1 running rfl
          (Ev.owes_endProof (Ev.owes_of_eq s.arrival_owes rfl rfl) r)
  · have hexpired : proofExpired (Ev.start s) = endProof run (Ev.start s) := by
      rw [proofExpired, show (Ev.start s).s.ring.proofRun = some run from hrun]
      exact if_pos htimer
    exact completes_event (c := .proofTimeout) rfl hp hexpired (endProof_eq _ _).1 hp rfl
      (Ev.owes_endProof (Ev.owes_start s) run)
  · refine congrArg Host.Outcome.next (event_nothing hp ?_)
    rcases hquiet with hnone | ⟨run, hrun, htimer⟩
    · rw [proofExpired, show (Ev.start s).s.ring.proofRun = none from hnone]
    · rw [proofExpired, show (Ev.start s).s.ring.proofRun = some run from hrun]
      exact if_neg (by rw [htimer]; decide)

/-! ### Malformed requests -/

/-- Only a PROTECT write carries a pin level, and it carries a WRITE (R9, log 13). -/
theorem State.withPinsOf_not_write {c : Instr} {m : Message} (hc : carried c = some m) (hk : m.kind ≠ 0x21) (s : State) :
    s.withPinsOf c = s := by
  cases c
  case protectWrite h g rest =>
    rw [← Option.some.inj hc] at hk
    exact absurd rfl hk
  all_goals rfl

/-- Settles O27: the form check of a CTRL, then its code. -/
theorem malformedRequestsAnswered : Obligations.MalformedRequestsAnswered := by
  intro h c p s ho hc hp
  have hexec : exec c s = .next (finish (ctrl h.tag p s.arrival)) := by
    rw [exec_carried hc, State.withPinsOf_not_write hc (by decide : (0x20 : Byte) ≠ 0x21)]
    exact congrArg Host.Outcome.next (exec_ctrl ho hp)
  refine ⟨fun hlen => answers_of ho ?_, fun hlen hcode => answers_of ho ?_⟩
  · rw [hexec, ctrl, if_pos hlen]
  · have hunknown : Request.ofCode (byteAt p 0) = none := by
      cases hr : Request.ofCode (byteAt p 0) with
      | none => rfl
      | some r => exact absurd ((Request.ofCode_iff _ _).mp hr) (hcode r)
    rw [hexec, ctrl, if_neg (not_not_intro hlen), hunknown]

end Sys2Proof.Machine
end

section
/-! SUPPORT. WRITEs of records: what a request carries, where its records go, and the regions LINEMAP, NODE, PROTECT, TITLE,
DOSE, PROFILE and COMPARATOR (R6, R9, R30, R88, R103, R152, R155). -/

namespace Sys2Proof.Machine

/-! ### Records written to successive numbers -/

/-- The number at distance `behind m i j` from `i` is `j`. -/
theorem add_behind_mod {m i j : Nat} (hi : i ≤ m) (hj : j < m) : (i + behind m i j) % m = j := by
  rw [behind, Nat.add_mod_mod, show i + (j + m - i) = j + m by omega, Nat.add_mod_right, Nat.mod_eq_of_lt hj]

/-- The distance of a number written at distance `d`, short of a whole turn, is `d`. -/
theorem behind_add_mod {m i d : Nat} (hi : i ≤ m) (hd : d < m) : behind m i ((i + d) % m) = d := by
  rw [behind, Nat.add_sub_assoc hi, Nat.mod_add_mod, show i + d + (m - i) = d + m by omega, Nat.add_mod_right,
    Nat.mod_eq_of_lt hd]

/-- After a write of `k` records from `i` on, an entry less than `k` behind `i` is the record of that distance, and every
other is kept (R160). -/
theorem Table.get_setFrom_range {α : Type} {n : Nat} [NeZero n] (t : Table α n) {i k : Nat} (hi : i ≤ n) (hk : k ≤ n)
    (g : Nat → α) (j : Fin n) :
    (t.setFrom i ((List.range k).map g)).get j = if behind n i j.val < k then g (behind n i j.val) else t.get j := by
  have hlen : ((List.range k).map g).length = k := by simp
  split
  case isTrue hb =>
    have hj : Fin.ofNat n (i + behind n i j.val) = j := Fin.ext (add_behind_mod hi j.isLt)
    have hat := Table.get_setFrom_at ((List.range k).map g) t i (behind n i j.val) (by rwa [hlen]) (by rwa [hlen])
    rw [hj] at hat
    rw [hat]
    simp
  case isFalse hb =>
    refine Table.get_setFrom_other _ _ _ _ fun d hd hj => hb ?_
    rw [hlen] at hd
    rw [← hj, show (Fin.ofNat n (i + d)).val = (i + d) % n from rfl, behind_add_mod hi (by omega)]
    exact hd

/-! ### Records of a request -/

theorem chunks_eq (size k : Nat) (v : List Byte) : chunks size k v = (List.range k).map (recordAt size v) := by
  induction k generalizing v with
  | zero => rfl
  | succ k ih =>
    have hshift (d : Nat) : recordAt size v (d + 1) = recordAt size (v.drop size) d := by
      rw [recordAt, recordAt, List.drop_drop, Nat.mul_succ, Nat.add_comm]
    rw [chunks, ih, List.range_succ_eq_map, List.map_cons, List.map_map]
    exact congrArg₂ _ (by rw [recordAt, Nat.mul_zero, List.drop_zero]) (List.map_congr_left fun d _ => (hshift d).symm)

/-- The records of a WRITE (Table 9-3). -/
theorem recordsOf_cons (code : Byte) (rest : List Byte) (size : Nat) :
    recordsOf (code :: rest) size = (List.range (natAt1 rest 2)).map (recordAt size (rest.drop 3)) :=
  chunks_eq size _ _

/-- The LENGTH check of a region that takes `lo` to `hi` records (R159). -/
theorem lengthOk_cons_iff {rest : List Byte} (hrest : 3 ≤ rest.length) (code : Byte) (lo hi size : Nat) :
    lengthOk (code :: rest) lo hi size = true
      ↔ lo ≤ natAt1 rest 2 ∧ natAt1 rest 2 ≤ hi ∧ (rest.drop 3).length = size * natAt1 rest 2 := by
  have hcount : reqCount (code :: rest) = natAt1 rest 2 := rfl
  rw [lengthOk, decide_eq_true_iff, hcount, List.length_cons, List.length_drop]
  refine and_congr_right fun _ => and_congr_right fun _ => ?_
  omega

/-- Records are decoded together: one out of range refuses them all. -/
theorem decodeAll_eq {α : Type} {f : List Byte → Option α} {ok : List Byte → Bool} {g : List Byte → α}
    (hf : ∀ p, f p = if ok p then some (g p) else none) (ps : List (List Byte)) :
    decodeAll f ps = if ps.all ok then some (ps.map g) else none := by
  induction ps with
  | nil => rfl
  | cons p ps ih =>
    rw [decodeAll, hf, ih, List.all_cons]
    cases ok p <;> cases ps.all ok <;> rfl

/-- Every record of a request meets a test exactly when it does at each distance. -/
theorem all_records_iff {k size : Nat} {v : List Byte} {ok : List Byte → Bool} :
    ((List.range k).map (recordAt size v)).all ok = true ↔ ∀ d, d < k → ok (recordAt size v d) = true := by
  simp

/-! ### LINEMAP -/

theorem writeLinemap_eq (p : List Byte) (s : State) :
    writeLinemap p s = configWrite (lengthOk p 1 9 1)
      (decide (1 ≤ reqIndex p ∧ reqIndex p ≤ 9 ∧ reqIndex p + reqCount p - 1 ≤ 9) && (p.drop 4).all (mappable s)) s
      { s with lineMap := s.lineMap.setFrom (reqIndex p - 1) (p.drop 4) } := by
  have hrange : (reqIndex p < 1 ∨ 9 < reqIndex p ∨ 9 < reqIndex p + reqCount p - 1 ∨ !((p.drop 4).all (mappable s)))
      ↔ (!(decide (1 ≤ reqIndex p ∧ reqIndex p ≤ 9 ∧ reqIndex p + reqCount p - 1 ≤ 9)
        && (p.drop 4).all (mappable s))) = true := by
    cases (p.drop 4).all (mappable s)
    · simp
    · simp only [Bool.not_true, Bool.false_eq_true, or_false, Bool.and_true, Bool.not_eq_true', decide_eq_false_iff_not]
      omega
  simp only [writeLinemap, configWrite, hrange]

theorem mappable_iff (s : State) (x : Node) :
    mappable s x = true ↔ 1 ≤ x.toNat ∧ x.toNat ≤ 62 ∧ x ≠ s.ring.ownNode ∧ some x ≠ s.ring.formerNode := by
  rw [mappable, stationNode, Bool.and_eq_true, Bool.and_eq_true, decide_eq_true_iff, bne_iff_ne, bne_iff_ne, and_assoc,
    and_assoc]
  exact and_congr_right fun _ => and_congr_right fun _ => and_congr_right fun _ => ne_comm

theorem map_byteAt_range {v : List Byte} {k : Nat} (h : v.length = k) : (List.range k).map (byteAt v) = v := by
  refine List.ext_getElem (by simpa using h.symm) fun d _ hd => ?_
  simp [byteAt, hd]

/-- Settles O29: the checks of `configWrite`, and the roles written without wrap. -/
theorem lineMapWritten : Obligations.LineMapWritten := by
  intro h rest s ho hmin hmax a n k v form range
  obtain ⟨refuseForm, refuseRange, refuseState, accept⟩ := configWrite_settles (c := .linemapWrite h rest) (r := .linemap)
    (exec_carried rfl s) ho hmin hmax rfl (writeLinemap_eq _ _) rfl rfl
  have hform : lengthOk (Region.linemap.code :: rest) 1 9 1 = true ↔ form := by
    rw [lengthOk_cons_iff hmin, Nat.one_mul]
  have hrange (hf : form) : (decide (1 ≤ n ∧ n ≤ 9 ∧ n + k - 1 ≤ 9) && v.all (mappable a)) = true ↔ range := by
    obtain ⟨hlo, -, -⟩ := hf
    rw [Bool.and_eq_true, decide_eq_true_iff, List.all_eq_true, and_assoc, and_assoc]
    refine and_congr_right fun _ => and_congr_right fun _ => and_congr (by omega) ?_
    exact forall_congr' fun x => imp_congr_right fun _ => mappable_iff a x
  refine ⟨fun hf => refuseForm (mt hform.mp hf), fun hf hr => refuseRange (hform.mpr hf) (mt (hrange hf).mp hr),
    fun hf hr hst => refuseState (hform.mpr hf) ((hrange hf).mpr hr) hst, fun hf hr hst m hm => ?_⟩
  have accepted := accept (hform.mpr hf) ((hrange hf).mpr hr) hst
  obtain ⟨hlo, hhi, hlen⟩ := hf
  obtain ⟨hn1, hn9, hnk, -⟩ := hr
  have hmap : m = a.lineMap.setFrom (n - 1) v := by
    refine Table.ext_get fun i => ?_
    have hset := Table.get_setFrom_range a.lineMap (i := n - 1) (by omega) hhi (byteAt v) i
    rw [map_byteAt_range hlen] at hset
    rw [hm, hset]
    have hb : behind 9 (n - 1) i.val < k ↔ n ≤ i.val + 1 ∧ i.val + 1 < n + k := by
      rw [behind]
      omega
    by_cases hi : n ≤ i.val + 1 ∧ i.val + 1 < n + k
    · rw [if_pos hi, if_pos (hb.mpr hi)]
      congr 1
      rw [behind]
      omega
    · rw [if_neg hi, if_neg (mt hb.mp hi)]
  rw [hmap]
  exact accepted

/-! ### NODE and PROTECT -/

/-- A WRITE that carries a pin level runs as one that finds it (log 13). -/
theorem completes_of_pins {s u : State} {p : Pins} {c d : Instr} {ms : List Message}
    (h : ({ s with pins := p }).completes d u ms) (hx : exec c s = exec d { s with pins := p }) : s.completes c u ms := by
  obtain ⟨t, ht, hover⟩ := h
  exact ⟨t, hx.trans ht, hover⟩

theorem State.arrived_withPins (s : State) (p : Pins) : ({ s with pins := p }).arrived = { s.arrived with pins := p } := by
  unfold State.arrived
  split <;> rfl

theorem stationNode_iff (n : Node) : stationNode n = true ↔ 1 ≤ n.toNat ∧ n.toNat ≤ 62 := decide_eq_true_iff

theorem LineMap.any_eq_iff (m : LineMap) (x : Node) : m.list.any (fun n => n == x) = true ↔ ∃ i, m.get i = x := by
  rw [Table.any_iff]
  simp only [beq_iff_eq]

/-- The first byte a WRITE carries behind region, index and count. -/
theorem byteAt_cons_four (code : Byte) (rest : List Byte) : byteAt (code :: rest) 4 = byteAt (rest.drop 3) 0 := by
  simp [byteAt, List.getD_eq_getElem?_getD]

theorem writeNode_cons (code : Byte) (rest : List Byte) (s : State) :
    writeNode (code :: rest) s = if !lengthOk (code :: rest) 1 1 1 then (.length, s)
      else if natAt2 rest 0 ≠ 0 ∨ !stationNode (byteAt (rest.drop 3) 0)
        ∨ s.lineMap.list.any (fun n => n == byteAt (rest.drop 3) 0) then (.range, s)
      else if s.rc.state ≠ .config then (.state, s)
      else if s.ring.proofRun.isSome then (.busy, s)
      else (.ok, { s with ring :=
        { s.ring with formerNode := some s.ring.ownNode, ownNode := byteAt (rest.drop 3) 0 } }) := by
  rw [writeNode, byteAt_cons_four]
  rfl

theorem writeProtect_cons (code : Byte) (rest : List Byte) (s : State) :
    writeProtect (code :: rest) s = if !lengthOk (code :: rest) 1 1 1 then (.length, s)
      else if natAt2 rest 0 ≠ 0 ∨ !protectInRange (byteAt (rest.drop 3) 0) then (.range, s)
      else if s.pins.guard = .low then (.isProtected, s)
      else (.ok, { s with titles := { s.titles with protect := protectLevel (byteAt (rest.drop 3) 0) } }) := by
  rw [writeProtect, byteAt_cons_four]
  rfl

/-- Settles O30: NODE's checks in order, and PROTECT's with GUARD as the command carries it. -/
theorem nodeAndProtectWritten : Obligations.NodeAndProtectWritten := by
  intro h guard rest s ho hmin hmax a g n k v x form nodeRange levelRange
  have bad (r : Region) (hf : ¬ form) : (!lengthOk (r.code :: rest) 1 1 1) = true := by
    simpa using mt (lengthOk_single_iff hmin r.code 1).mp hf
  have good (r : Region) (hf : form) : ¬ (!lengthOk (r.code :: rest) 1 1 1) = true := by
    simpa using (lengthOk_single_iff hmin r.code 1).mpr hf
  have node {st : Status} {u : State} (hf : writeNode (Region.node.code :: rest) a = (st, u)) (hp : u.phase = a.phase)
      (hm : u.mu = a.mu) : s.completes (.nodeWrite h rest) u [u.writeReply h.tag st .node rest] :=
    completes_write (c := .nodeWrite h rest) (exec_carried rfl s) ho hmin hmax rfl hf hp hm
  have hnode : (n ≠ 0 ∨ !stationNode x ∨ a.lineMap.list.any fun n => n == x) ↔ ¬ nodeRange := by
    have hs := stationNode_iff x
    have hany := LineMap.any_eq_iff a.lineMap x
    have hall : (∀ i, a.lineMap.get i ≠ x) ↔ ¬ ∃ i, a.lineMap.get i = x := not_exists.symm
    simp only [nodeRange, hany, hall, Bool.not_eq_true', ← Bool.not_eq_true, hs]
    tauto
  have guarded : ({ s with pins := { s.pins with guard := guard } }).arrived = g := by
    rw [State.arrived_withPins]
    simp only [g, a, State.arrived_pins]
  have protect {st : Status} {u : State} (hf : writeProtect (Region.protect.code :: rest) g = (st, u))
      (hp : u.phase = g.phase) (hm : u.mu = g.mu) :
      s.completes (.protectWrite h guard rest) u [u.writeReply h.tag st .protect rest] := by
    rw [← guarded] at hf hp hm
    refine completes_of_pins (d := .writeUnknownRegion h (Region.protect.code :: rest)) (p := { s.pins with guard := guard })
      ?_ rfl
    exact completes_write (exec_carried rfl _) ho hmin hmax rfl hf hp hm
  have hlevel : (n ≠ 0 ∨ !protectInRange x) ↔ ¬ levelRange := by
    simp only [levelRange, protectInRange, Bool.not_eq_true', decide_eq_false_iff_not]
    tauto
  refine ⟨fun hf => ?_, fun hf hr => ?_, fun hf hr hst => ?_, fun hf hr hst hrun => ?_, fun hf hr hst hrun => ?_,
    fun hf => ?_, fun hf hr => ?_, fun hf hr hlow => ?_, fun hf hr hhigh => ?_⟩
  · exact node (if_pos (bad .node hf)) rfl rfl
  · exact node (by rw [writeNode_cons, if_neg (good .node hf), if_pos (hnode.mpr hr)]) rfl rfl
  · exact node (by rw [writeNode_cons, if_neg (good .node hf), if_neg (not_not_intro hr ∘ hnode.mp), if_pos hst]) rfl rfl
  · exact node (by rw [writeNode_cons, if_neg (good .node hf), if_neg (not_not_intro hr ∘ hnode.mp),
      if_neg (not_not_intro hst), if_pos (Option.isSome_iff_ne_none.mpr hrun)]) rfl rfl
  · exact node (by rw [writeNode_cons, if_neg (good .node hf), if_neg (not_not_intro hr ∘ hnode.mp),
      if_neg (not_not_intro hst), if_neg fun hs => Option.isSome_iff_ne_none.mp hs hrun]) rfl rfl
  · exact protect (if_pos (bad .protect hf)) rfl rfl
  · exact protect (by rw [writeProtect_cons, if_neg (good .protect hf), if_pos (hlevel.mpr hr)]) rfl rfl
  · exact protect (by rw [writeProtect_cons, if_neg (good .protect hf), if_neg (not_not_intro hr ∘ hlevel.mp),
      if_pos hlow]) rfl rfl
  · have hnot : g.pins.guard ≠ .low := fun hlow => absurd (hhigh.symm.trans hlow) (by decide)
    exact protect ((writeProtect_cons _ _ _).trans ((if_neg (good .protect hf)).trans
      ((if_neg (not_not_intro hr ∘ hlevel.mp)).trans (if_neg hnot)))) rfl rfl

end Sys2Proof.Machine
end

section
/-! SUPPORT. WRITEs of title records, recipes, profiles and comparators (R2, R6, R8, R30, R35, R88, R103). -/

namespace Sys2Proof.Machine

/-! ### TITLE -/

/-- A title record decodes to the slot content its bytes give, or to none out of range (R2). -/
theorem TitleRecord.decode_eq (p : List Byte) :
    TitleRecord.decode p = if (TitleRecord.decode p).isSome then some (titleOf p) else none := by
  rw [TitleRecord.decode, titleOf]
  split
  · rfl
  · split <;> rfl

theorem TitleRecord.decode_isSome_iff (p : List Byte) : (TitleRecord.decode p).isSome = true ↔ titleInRange p := by
  rw [TitleRecord.decode, titleInRange]
  split
  case isTrue hkey => simp [hkey]
  case isFalse hkey =>
    split
    case isTrue hfields =>
      refine iff_of_true rfl (.inr ?_)
      tauto
    case isFalse hfields =>
      refine iff_of_false (by simp) ?_
      tauto

theorem TitleTable.isProtected_iff (t : TitleTable) (i : Nat) :
    t.isProtected i = true ↔ ¬ i < firstProtected t.protect := by
  rw [TitleTable.isProtected, decide_eq_true_iff, protectedFrom_eq, not_lt]

/-- The checks of a TITLE write behind its form, of records in range: index, protection, repeated keys (R6). -/
theorem writeTitle_checked {rest : List Byte} {s : State} (hform : lengthOk (Region.title.code :: rest) 1 2 23 = true)
    (hall : ((List.range (natAt1 rest 2)).map (recordAt 23 (rest.drop 3))).all (fun p => (TitleRecord.decode p).isSome)
      = true) :
    writeTitle (Region.title.code :: rest) s =
      let b := s.titles.standbyBank.setFrom (natAt2 rest 0)
        ((List.range (natAt1 rest 2)).map fun d => titleOf (recordAt 23 (rest.drop 3) d))
      if 511 < natAt2 rest 0 then (.range, s)
      else if (List.range (natAt1 rest 2)).any fun d => s.titles.isProtected ((natAt2 rest 0 + d) % 512) then
        (.isProtected, s)
      else if Bank.keysUnique b then (.ok, { s with titles := s.titles.setStandby b }) else (.duplicate, s) := by
  rw [writeTitle, hform, recordsOf_cons, decodeAll_eq TitleRecord.decode_eq, if_pos hall, List.map_map]
  rfl

theorem writeTitle_range {rest : List Byte} {s : State} (hform : lengthOk (Region.title.code :: rest) 1 2 23 = true)
    (hall : ¬ ((List.range (natAt1 rest 2)).map (recordAt 23 (rest.drop 3))).all (fun p => (TitleRecord.decode p).isSome)
      = true) : writeTitle (Region.title.code :: rest) s = (.range, s) := by
  rw [writeTitle, hform, recordsOf_cons, decodeAll_eq TitleRecord.decode_eq, if_neg hall]
  rfl

/-- Settles O31: form, range, protection and repeated keys are tested in that order, and the bank written is the one the
statement names. -/
theorem titlesWritten : Obligations.TitlesWritten := by
  intro h rest s ho hmin hmax a n k v form range free
  have settled {st : Status} {u : State} (hf : writeTitle (Region.title.code :: rest) a = (st, u)) (hp : u.phase = a.phase)
      (hm : u.mu = a.mu) : s.completes (.titleWrite h rest) u [u.writeReply h.tag st .title rest] :=
    completes_write (c := .titleWrite h rest) (exec_carried rfl s) ho hmin hmax rfl hf hp hm
  have hform : lengthOk (Region.title.code :: rest) 1 2 23 = true ↔ form := by
    rw [lengthOk_cons_iff hmin, ← and_assoc]
    exact and_congr_left fun _ => by omega
  have hrange : (((List.range k).map (recordAt 23 v)).all (fun p => (TitleRecord.decode p).isSome) = true ∧ ¬ 511 < n)
      ↔ range := by
    rw [all_records_iff, not_lt, and_comm]
    exact and_congr_right fun _ => forall_congr' fun d => imp_congr_right fun _ => TitleRecord.decode_isSome_iff _
  have hfree : ¬ ((List.range k).any fun d => a.titles.isProtected ((n + d) % 512)) = true ↔ free := by
    simp only [List.any_eq_true, List.mem_range, TitleTable.isProtected_iff, not_exists, not_and, not_not]
    rfl
  refine ⟨fun hf => ?_, fun hf hr => ?_, fun hf hr hp => ?_, fun hf hr hp b hb => ?_⟩
  · exact settled (if_pos (by simpa using mt hform.mp hf)) rfl rfl
  · by_cases hall : ((List.range k).map (recordAt 23 v)).all (fun p => (TitleRecord.decode p).isSome) = true
    · have hn : 511 < n := by
        by_contra hn
        exact hr (hrange.mp ⟨hall, hn⟩)
      exact settled ((writeTitle_checked (hform.mpr hf) hall).trans (if_pos hn)) rfl rfl
    · exact settled (writeTitle_range (hform.mpr hf) hall) rfl rfl
  · obtain ⟨hall, hn⟩ := hrange.mpr hr
    have hprotected : ((List.range k).any fun d => a.titles.isProtected ((n + d) % 512)) = true := by
      by_contra hno
      exact hp (hfree.mp hno)
    exact settled ((writeTitle_checked (hform.mpr hf) hall).trans ((if_neg hn).trans (if_pos hprotected))) rfl rfl
  · obtain ⟨hall, hn⟩ := hrange.mpr hr
    have hformed := hform.mpr hf
    obtain ⟨hk, -⟩ := hf
    have hbank : a.titles.standbyBank.setFrom n ((List.range k).map fun d => titleOf (recordAt 23 v d)) = b :=
      Table.ext_get fun j => (Table.get_setFrom_range _ (by omega) (by omega) _ j).trans (hb j).symm
    have hchecked := (writeTitle_checked (s := a) hformed hall).trans
      ((if_neg hn).trans (if_neg (hfree.mpr hp)))
    rw [hbank] at hchecked
    refine ⟨fun hdup => ?_, fun huniq => ?_⟩
    · exact settled (hchecked.trans (if_neg (mt (Bank.keysUnique_iff b).mp hdup))) rfl rfl
    · exact settled (hchecked.trans (if_pos ((Bank.keysUnique_iff b).mpr huniq))) rfl rfl

/-! ### DOSE -/

theorem writeDose_eq (p : List Byte) (s : State) :
    writeDose p s = configWrite (lengthOk p 1 4 7)
      ((recordsOf p 7).all (fun x => (Recipe.read x).inRange) && decide (reqIndex p ≤ 31)) s
      { s with dose := s.dose.write (reqIndex p) ((recordsOf p 7).map Recipe.read) } := by
  rw [writeDose, decodeAll_eq (f := Recipe.decode) (g := Recipe.read) (ok := fun x => (Recipe.read x).inRange) fun _ => rfl, configWrite]
  cases (recordsOf p 7).all fun x => (Recipe.read x).inRange
  · rfl
  · by_cases hn : reqIndex p ≤ 31
    · simp [hn, Nat.not_lt.mpr hn]
    · simp [hn, Nat.lt_of_not_le hn]

/-- A recipe read from a WRITE needs no upper bound on its shot size (Table 2-3). -/
theorem Recipe.inRange_read_iff (p : List Byte) :
    (Recipe.read p).inRange = true
      ↔ natAt2 p 0 ≤ 500 ∧ natAt2 p 2 ≤ 500 ∧ 1 ≤ natAt2 p 4 ∧ natAt1 p 6 ≤ 200 := by
  have hshot := natAt2_le p 4
  rw [Recipe.inRange, decide_eq_true_iff]
  simp only [Recipe.read, hshot, true_and]

theorem DoseUnit.write_recipes (u : DoseUnit) (i : Nat) (rs : List Recipe) :
    (u.write i rs).recipes = u.recipes.setFrom i rs := by
  induction rs generalizing u i with
  | nil => rfl
  | cons r rs ih => exact ih _ _

/-- Clearing both carries of a recipe (R29, R30). -/
theorem get_clear_carries (t : Table Nat 64) (r : Fin 32) (j : Fin 64) :
    ((t.set (leftCarry r) 0).set (rightCarry r) 0).get j = if j.val / 2 = r.val then 0 else t.get j := by
  have hr := r.isLt
  have hj := j.isLt
  have hleft : leftCarry r = j ↔ 2 * r.val = j.val := by
    rw [Fin.ext_iff]
    change (2 * r.val) % 64 = j.val ↔ _
    omega
  have hright : rightCarry r = j ↔ 2 * r.val + 1 = j.val := by
    rw [Fin.ext_iff]
    change (2 * r.val + 1) % 64 = j.val ↔ _
    omega
  rw [Table.get_set, Table.get_set]
  simp only [hleft, hright]
  split
  · rw [if_pos (by omega)]
  · split
    · rw [if_pos (by omega)]
    · rw [if_neg (by omega)]

/-- A write of recipes clears both carries of each recipe written and keeps the others (R30). -/
theorem DoseUnit.write_carries (u : DoseUnit) (i : Nat) (rs : List Recipe) (j : Fin 64) :
    (u.write i rs).carries.get j
      = if ∃ d < rs.length, (i + d) % 32 = j.val / 2 then 0 else u.carries.get j := by
  induction rs generalizing u i with
  | nil => simp [DoseUnit.write]
  | cons r rs ih =>
    have hsplit : (∃ d < (r :: rs).length, (i + d) % 32 = j.val / 2)
        ↔ (∃ d < rs.length, (i + 1 + d) % 32 = j.val / 2) ∨ j.val / 2 = i % 32 := by
      constructor
      · rintro ⟨d, hd, he⟩
        cases d with
        | zero => exact .inr he.symm
        | succ d => exact .inl ⟨d, by simpa using hd, by rwa [Nat.add_assoc, Nat.add_comm 1]⟩
      · rintro (⟨d, hd, he⟩ | he)
        · exact ⟨d + 1, by simpa using hd, by rwa [Nat.add_comm d, ← Nat.add_assoc]⟩
        · exact ⟨0, by simp, he.symm⟩
    rw [DoseUnit.write, ih, get_clear_carries]
    simp only [hsplit, show (Fin.ofNat 32 i).val = i % 32 from rfl]
    by_cases hrest : ∃ d < rs.length, (i + 1 + d) % 32 = j.val / 2
    · rw [if_pos hrest, if_pos (.inl hrest)]
    · simp only [hrest, false_or, if_false]

/-- The numbers written are those less than `k` behind the first. -/
theorem exists_add_mod_iff {m i j k : Nat} (hi : i ≤ m) (hj : j < m) (hk : k ≤ m) :
    (∃ d < k, (i + d) % m = j) ↔ behind m i j < k := by
  constructor
  · rintro ⟨d, hd, rfl⟩
    rwa [behind_add_mod hi (by omega)]
  · exact fun hb => ⟨_, hb, add_behind_mod hi hj⟩

/-! ### PROFILE -/

theorem writeProfile_eq (p : List Byte) (s : State) :
    writeProfile p s = configWrite (lengthOk p 1 4 12)
      ((recordsOf p 12).all (fun x => (ProfileRecord.read x).inRange) && decide (reqIndex p ≤ 63)) s
      { s with profiles := s.profiles.setFrom (reqIndex p) ((recordsOf p 12).map fun x => (ProfileRecord.read x).profile) }
    := by
  rw [writeProfile, decodeAll_eq (f := Profile.decode) (g := fun x => (ProfileRecord.read x).profile)
    (ok := fun x => (ProfileRecord.read x).inRange) fun _ => rfl, configWrite]
  cases (recordsOf p 12).all fun x => (ProfileRecord.read x).inRange
  · rfl
  · by_cases hn : reqIndex p ≤ 63
    · simp [hn, Nat.not_lt.mpr hn]
    · simp [hn, Nat.lt_of_not_le hn]

theorem ProfileRecord.inRange_read_iff (p : List Byte) :
    (ProfileRecord.read p).inRange = true ↔ ∀ j, j < 6 → natAt1 p (2 * j + 1) ≤ 1 := by
  simp only [ProfileRecord.inRange, ProfileRecord.entries, ProfileRecord.read, List.all_cons, List.all_nil, Bool.and_true,
    Bool.and_eq_true, decide_eq_true_iff]
  constructor
  · rintro ⟨h0, h1, h2, h3, h4, h5⟩ j hj
    interval_cases j
    exacts [h0, h1, h2, h3, h4, h5]
  · intro hall
    exact ⟨hall 0 (by omega), hall 1 (by omega), hall 2 (by omega), hall 3 (by omega), hall 4 (by omega),
      hall 5 (by omega)⟩

theorem ProfileRecord.profile_read (p : List Byte) : (ProfileRecord.read p).profile = profileOfBytes p := rfl

/-- Settles O32: the checks of `configWrite` for both regions, and what their writes make of tables and carries. -/
theorem recipesAndProfilesWritten : Obligations.RecipesAndProfilesWritten := by
  intro h rest s ho hmin hmax a n k v doseForm recipe doseRange profForm profRange
  obtain ⟨dLength, dOut, dState, dOk⟩ := configWrite_settles (c := .doseWrite h rest) (r := .dose)
    (exec_carried rfl s) ho hmin hmax rfl (writeDose_eq _ _) rfl rfl
  obtain ⟨pLength, pOut, pState, pOk⟩ := configWrite_settles (c := .profileWrite h rest) (r := .profile)
    (exec_carried rfl s) ho hmin hmax rfl (writeProfile_eq _ _) rfl rfl
  have dForm : lengthOk (Region.dose.code :: rest) 1 4 7 = true ↔ doseForm := lengthOk_cons_iff hmin _ _ _ _
  have pForm : lengthOk (Region.profile.code :: rest) 1 4 12 = true ↔ profForm := lengthOk_cons_iff hmin _ _ _ _
  have dIff : ((recordsOf (Region.dose.code :: rest) 7).all (fun x => (Recipe.read x).inRange) && decide (n ≤ 31)) = true
      ↔ doseRange := by
    rw [recordsOf_cons, Bool.and_eq_true, decide_eq_true_iff, all_records_iff, and_comm]
    exact and_congr_right fun _ => forall_congr' fun d => imp_congr_right fun _ => Recipe.inRange_read_iff _
  have pIff : ((recordsOf (Region.profile.code :: rest) 12).all (fun x => (ProfileRecord.read x).inRange)
      && decide (n ≤ 63)) = true ↔ profRange := by
    rw [recordsOf_cons, Bool.and_eq_true, decide_eq_true_iff, all_records_iff, and_comm]
    exact and_congr_right fun _ => forall_congr' fun d => imp_congr_right fun _ => ProfileRecord.inRange_read_iff _
  refine ⟨fun hf => dLength (mt dForm.mp hf), fun hf hr => dOut (dForm.mpr hf) (mt dIff.mp hr),
    fun hf hr => dState (dForm.mpr hf) (dIff.mpr hr), fun hf hr hst u hrecipes hcarries => ?_,
    fun hf => pLength (mt pForm.mp hf), fun hf hr => pOut (pForm.mpr hf) (mt pIff.mp hr),
    fun hf hr => pState (pForm.mpr hf) (pIff.mpr hr), fun hf hr hst q hq => ?_⟩
  · have accepted := dOk (dForm.mpr hf) (dIff.mpr hr) hst
    obtain ⟨-, hk, -⟩ := hf
    obtain ⟨hn, -⟩ := hr
    have hunit : a.dose.write n ((List.range k).map recipe) = u := by
      refine DoseUnit.mk.injEq .. |>.mpr ⟨Table.ext_get fun j => ?_, Table.ext_get fun j => ?_⟩
      · rw [DoseUnit.write_recipes, Table.get_setFrom_range _ (by omega) (by omega), hrecipes]
      · rw [DoseUnit.write_carries, hcarries, List.length_map, List.length_range]
        simp only [exists_add_mod_iff (i := n) (m := 32) (j := j.val / 2) (k := k) (by omega) (by omega) (by omega)]
    rw [← hunit]
    rw [recordsOf_cons, List.map_map] at accepted
    exact accepted
  · have accepted := pOk (pForm.mpr hf) (pIff.mpr hr) hst
    obtain ⟨-, hk, -⟩ := hf
    obtain ⟨hn, -⟩ := hr
    have htable : a.profiles.setFrom n ((List.range k).map fun d => profileOfBytes (recordAt 12 v d)) = q :=
      Table.ext_get fun j => (Table.get_setFrom_range _ (by omega) (by omega) _ j).trans (hq j).symm
    rw [← htable]
    rw [recordsOf_cons, List.map_map, show (fun x => (ProfileRecord.read x).profile) = profileOfBytes from
      funext ProfileRecord.profile_read] at accepted
    exact accepted

/-! ### COMPARATOR -/

theorem comparator_decode_eq (p : List Byte) :
    ComparatorConfig.decode p
      = if (ComparatorRecord.read p).inRange then some (comparatorOf p) else none := rfl

/-- The checks of a comparator record (R103). -/
theorem ComparatorRecord.inRange_read_iff (p : List Byte) :
    (ComparatorRecord.read p).inRange = true ↔ comparatorInRange p := by
  have hdirection : (ComparatorRecord.read p).config.direction = if byteAt p 0 = 0 then .above else .below := rfl
  have hzero : byteAt p 0 = 0 ↔ natAt1 p 0 = 0 := by
    rw [← BitVec.toNat_inj]
    rfl
  rw [ComparatorRecord.inRange, ComparatorConfig.inRange, hdirection, comparatorInRange]
  simp only [hzero, Bool.and_eq_true, decide_eq_true_iff]
  change ((natAt1 p 0 ≤ 1 ∧ natAt1 p 1 ≤ 1) ∧ (1 ≤ natAt1 p 2 ∧ natAt1 p 2 ≤ 4 ∧ -400 ≤ intAt2 p 3 ∧ intAt2 p 3 ≤ 3000
    ∧ -400 ≤ intAt2 p 5 ∧ intAt2 p 5 ≤ 3000) ∧ _) ↔ _
  by_cases h0 : natAt1 p 0 = 0
  · rw [if_pos h0]
    simp only [decide_eq_true_iff, h0, true_imp_iff, Nat.zero_ne_one, false_imp_iff, and_true]
    change (_ ∧ _ ∧ intAt2 p 5 ≤ intAt2 p 3) ↔ _
    omega
  · rw [if_neg h0]
    simp only [decide_eq_true_iff]
    change (_ ∧ _ ∧ intAt2 p 3 ≤ intAt2 p 5) ↔ _
    by_cases h1 : natAt1 p 0 = 1
    · simp only [h1, true_imp_iff]
      omega
    · omega

theorem comparatorRecords_length {p : List Byte} (h : ¬ lengthOk p 1 4 7 = true) : comparatorRecords p = (.length, []) :=
  if_pos (by simpa using h)

theorem comparatorRecords_formed {rest : List Byte} (h : lengthOk (Region.comparator.code :: rest) 1 4 7 = true) :
    comparatorRecords (Region.comparator.code :: rest)
      = if ((List.range (natAt1 rest 2)).map (recordAt 7 (rest.drop 3))).all (fun p => (ComparatorRecord.read p).inRange)
          ∧ natAt2 rest 0 ≤ 3 then
          (.ok, (List.range (natAt1 rest 2)).map fun d => comparatorOf (recordAt 7 (rest.drop 3) d))
        else (.range, []) := by
  have hindex : reqIndex (Region.comparator.code :: rest) = natAt2 rest 0 := rfl
  rw [comparatorRecords, h, recordsOf_cons, decodeAll_eq comparator_decode_eq, hindex]
  cases ((List.range (natAt1 rest 2)).map (recordAt 7 (rest.drop 3))).all fun p => (ComparatorRecord.read p).inRange
  · simp
  · by_cases hn : natAt2 rest 0 ≤ 3
    · simp [hn, Nat.not_lt.mpr hn]
    · simp [hn, Nat.lt_of_not_le hn]

/-- The alert of a comparator that was ON and is set OFF (R103). -/
def State.turnedOff (t : Table Comparator 4) (i : Nat) (s : State) : State :=
  s.loggingIf (t.get (Fin.ofNat 4 i)).on .ironAlarmOff 17 0 0 (BitVec.ofNat 16 (256 + i % 4))

/-- The state with the comparators replaced. -/
def State.withComparators (s : State) (t : Table Comparator 4) : State := { s with iron := { s.iron with comparators := t } }

theorem State.turnedOff_withComparators (t u : Table Comparator 4) (i : Nat) (s : State) :
    (s.turnedOff t i).withComparators u = (s.withComparators u).turnedOff t i := by
  unfold State.turnedOff State.loggingIf
  split <;> rfl

theorem writeComparators_cons (i : Nat) (c : ComparatorConfig) (cs : List ComparatorConfig) (e : Ev) :
    ∃ e' : Ev, writeComparators i (c :: cs) e = writeComparators (i + 1) cs e'
      ∧ e'.s = (e.s.withComparators (e.s.iron.comparators.set (Fin.ofNat 4 i) (Comparator.off c))).turnedOff
        e.s.iron.comparators i
      ∧ e'.feeds = e.feeds ∧ ∀ before, e.owes before → e'.owes before := by
  refine ⟨_, rfl, ?_, ?_, fun before ho => ?_⟩
  · unfold State.turnedOff State.loggingIf
    split <;> rfl
  · split <;> rfl
  · split
    · exact Ev.owes_logAlert (Ev.owes_of_eq ho rfl rfl) ..
    · exact Ev.owes_of_eq ho rfl rfl

/-- Comparators written: the new table, and the alerts of those that were ON in order of addressing (R103). -/
theorem writeComparators_s (i : Nat) (cs : List ComparatorConfig) (e : Ev) (t : Table Comparator 4) (hlen : cs.length ≤ 4)
    (ht : ∀ d < cs.length, e.s.iron.comparators.get (Fin.ofNat 4 (i + d)) = t.get (Fin.ofNat 4 (i + d))) :
    (writeComparators i cs e).s = (List.range cs.length).foldl (fun x d => x.turnedOff t (i + d))
      (e.s.withComparators (e.s.iron.comparators.setFrom i (cs.map Comparator.off))) := by
  induction cs generalizing i e with
  | nil => rfl
  | cons c cs ih =>
    obtain ⟨e', hwrite, hs, -, -⟩ := writeComparators_cons i c cs e
    have hcomparators : e'.s.iron.comparators
        = e.s.iron.comparators.set (Fin.ofNat 4 i) (Comparator.off c) := by
      rw [hs]
      unfold State.turnedOff State.loggingIf
      split <;> rfl
    have hfirst : e.s.iron.comparators.get (Fin.ofNat 4 i) = t.get (Fin.ofNat 4 i) := ht 0 (by simp)
    have hoff (x : State) : x.turnedOff e.s.iron.comparators i = x.turnedOff t i := by
      rw [State.turnedOff, State.turnedOff, hfirst]
    have hrest : ∀ d < cs.length, e'.s.iron.comparators.get (Fin.ofNat 4 (i + 1 + d)) = t.get (Fin.ofNat 4 (i + 1 + d)) := by
      intro d hd
      have hd4 : d + 1 < 4 := by simp at hlen; omega
      have hne : Fin.ofNat 4 i ≠ Fin.ofNat 4 (i + 1 + d) := by
        intro heq
        have : i % 4 = (i + 1 + d) % 4 := congrArg Fin.val heq
        omega
      rw [hcomparators, Table.get_set_other _ _ hne]
      have := ht (d + 1) (by simpa using hd)
      rwa [← Nat.add_assoc, Nat.add_right_comm] at this
    rw [hwrite, ih (i + 1) e' (by simp at hlen; omega) hrest, List.length_cons, List.range_succ_eq_map, List.foldl_cons,
      List.foldl_map, hcomparators, hs, State.turnedOff_withComparators, hoff]
    simp only [Nat.add_zero, Nat.succ_eq_add_one, Nat.add_right_comm i 1, Nat.add_assoc i]
    rfl

theorem writeComparators_feeds (i : Nat) (cs : List ComparatorConfig) (e : Ev) :
    (writeComparators i cs e).feeds = e.feeds := by
  induction cs generalizing i e with
  | nil => rfl
  | cons c cs ih =>
    obtain ⟨e', hwrite, -, hfeeds, -⟩ := writeComparators_cons i c cs e
    rw [hwrite, ih, hfeeds]

theorem Ev.owes_writeComparators {before : List Alert} {e : Ev} (ho : e.owes before) (i : Nat)
    (cs : List ComparatorConfig) : (writeComparators i cs e).owes before := by
  induction cs generalizing i e with
  | nil => exact ho
  | cons c cs ih =>
    obtain ⟨e', hwrite, -, -, howes⟩ := writeComparators_cons i c cs e
    rw [hwrite]
    exact ih (howes before ho) _

theorem State.turnedOff_phase (t : Table Comparator 4) (i : Nat) (s : State) : (s.turnedOff t i).phase = s.phase := by
  unfold State.turnedOff State.loggingIf
  split <;> rfl

/-- A COMPARATOR write completes with what its records make of the state, answered with the status of its checks. -/
theorem completes_comparators {s u : State} {h : Envelope} {rest : List Byte} {st : Status} {cs : List ComparatorConfig}
    (ho : s.obeys h) (hmin : 3 ≤ rest.length) (hmax : rest.length ≤ 55)
    (hf : comparatorRecords (Region.comparator.code :: rest) = (st, cs))
    (hu : (writeComparators (natAt2 rest 0) cs s.arrival).s = u) (hp : u.phase = s.arrived.phase) :
    s.completes (.comparatorWrite h rest) u [u.writeReply h.tag st .comparator rest] := by
  have hevent : write h.tag (Region.comparator.code :: rest) s.arrival
      = handAll [u.writeReply h.tag st .comparator rest] (writeComparators (natAt2 rest 0) cs s.arrival) := by
    rw [write_region hmin, writeTo, hf, respond, echo_region hmin, ← hu]
    rfl
  have hexec : exec (.comparatorWrite h rest) s = .next (finish (handAll [u.writeReply h.tag st .comparator rest]
      (writeComparators (natAt2 rest 0) cs s.arrival))) := by
    rw [← hevent, ← exec_write ho (by rw [List.length_cons]; omega)]
    rfl
  have hdone := completes_of hexec hu (hp.trans ((State.arrived_phase s).trans ho.1))
    (Ev.owes_writeComparators s.arrival_owes _ _)
  rwa [Ev.feedMessages, writeComparators_feeds] at hdone

/-- Settles O33: the checks, and the records written one after the other. -/
theorem comparatorsWritten : Obligations.ComparatorsWritten := by
  intro h rest s ho hmin hmax a n k v form range
  have hform : lengthOk (Region.comparator.code :: rest) 1 4 7 = true ↔ form := lengthOk_cons_iff hmin _ _ _ _
  have hrange : (((List.range k).map (recordAt 7 v)).all (fun p => (ComparatorRecord.read p).inRange) = true ∧ n ≤ 3)
      ↔ range := by
    rw [all_records_iff, and_comm]
    exact and_congr_right fun _ => forall_congr' fun d => imp_congr_right fun _ => ComparatorRecord.inRange_read_iff _
  refine ⟨fun hf => ?_, fun hf hr => ?_, fun hf hr q hq => ?_⟩
  · exact completes_comparators ho hmin hmax (comparatorRecords_length (mt hform.mp hf)) rfl rfl
  · exact completes_comparators ho hmin hmax
      ((comparatorRecords_formed (hform.mpr hf)).trans (if_neg (mt hrange.mp hr))) rfl rfl
  · intro w u
    have hrecords := (comparatorRecords_formed (hform.mpr hf)).trans (if_pos (hrange.mpr hr))
    obtain ⟨-, hk, -⟩ := hf
    obtain ⟨hn, -⟩ := hr
    have htable : a.iron.comparators.setFrom n
        (((List.range k).map fun d => comparatorOf (recordAt 7 v d)).map Comparator.off) = q := by
      rw [List.map_map]
      exact Table.ext_get fun j => (Table.get_setFrom_range _ (by omega) hk _ j).trans (hq j).symm
    have hwritten : (writeComparators n ((List.range k).map fun d => comparatorOf (recordAt 7 v d)) s.arrival).s = u := by
      rw [writeComparators_s n _ _ a.iron.comparators (by simpa using hk) fun _ _ => rfl, State.arrival_s, htable,
        List.length_map, List.length_range]
      rfl
    refine completes_comparators ho hmin hmax hrecords hwritten ?_
    have hfold (l : List Nat) (x : State) :
        (l.foldl (fun x d => x.turnedOff a.iron.comparators (n + d)) x).phase = x.phase := by
      induction l generalizing x with
      | nil => rfl
      | cons d l ih => exact (ih _).trans (State.turnedOff_phase _ _ _)
    exact hfold _ w

end Sys2Proof.Machine
end

section
/-! SUPPORT. Records in READ replies: the bytes each record is sent as (Tables 9-5, 10-3 and 10-4). -/

namespace Sys2Proof.Machine

/-! ### Flags packed in a byte -/

theorem packBits_two (a b : Bool) : packBits [a, b] = BitVec.ofNat 8 (a.toNat + 2 * b.toNat) := by
  revert a b
  decide

theorem packBits_three (a b c : Bool) : packBits [a, b, c] = BitVec.ofNat 8 (a.toNat + 2 * b.toNat + 4 * c.toNat) := by
  revert a b c
  decide

theorem packBits_five (a b c d e : Bool) :
    packBits [a, b, c, d, e] = BitVec.ofNat 8 (a.toNat + 2 * b.toNat + 4 * c.toNat + 8 * d.toNat + 16 * e.toNat) := by
  revert a b c d e
  decide

/-- A flag of weight `w` as a condition. -/
theorem ite_eq_mul_toNat (b : Bool) (w : Nat) : (if b = true then w else 0) = w * b.toNat := by
  cases b
  · rfl
  · exact (Nat.mul_one w).symm

/-! ### Records -/

theorem TitleData.encode_eq (d : TitleData) : d.encode = d.bytes := by
  simp only [TitleData.encode, TitleData.bytes, packBits_two, List.append_assoc]
  rfl

theorem TitleRecord.encode_eq (r : TitleRecord) : r.encode = r.bytes := by
  rw [TitleRecord.encode, TitleData.encode_eq]
  rfl

theorem Recipe.encode_eq (r : Recipe) : r.encode = r.bytes := rfl

theorem Profile.encode_eq (p : Profile) : p.encode = p.bytes := rfl

theorem Comparator.encode_eq (c : Comparator) : c.encode = c.bytes := by
  obtain ⟨⟨d, _, _, _, _⟩, _, _⟩ := c
  cases d <;> rfl

theorem foundBytes_some (f : Found) : foundBytes (some f) = pairOf f.slot.val ++ f.data.bytes := by
  rw [foundBytes, TitleData.encode_eq]
  rfl

theorem isNone_toNat {α : Type} [DecidableEq α] (o : Option α) : o.isNone.toNat = if o = none then 1 else 0 := by
  cases o <;> rfl

theorem BlockEntry.encode_eq (b : BlockEntry) : b.encode = b.bytes := by
  rw [BlockEntry.encode, BlockEntry.bytes, packBits_three, isNone_toNat]
  cases b.title with
  | some f =>
    rw [foundBytes_some]
    simp only [List.append_assoc]
    rfl
  | none =>
    simp only [List.append_assoc]
    rfl

theorem BookRecord.encode_eq (r : BookRecord) : r.encode = r.bytes := by
  rw [BookRecord.encode, BookRecord.bytes, packBits_three]
  cases r.profile <;> simp only [List.append_assoc] <;> rfl

theorem positionBytes_eq (p : Option BookRecord) : (p.getD emptyPosition).encode = positionBytes p := by
  cases p with
  | some r => exact BookRecord.encode_eq r
  | none => rfl

/-- The records of a collection, by its code (R164). -/
theorem Queues.encoded_eq (q : Queues) (c : Collection) : q.encoded c = q.bytes c.code := by
  cases c
  case bq => exact List.map_congr_left fun b _ => BlockEntry.encode_eq b
  case cq => rfl
  case jq => rfl
  case tq => exact List.map_congr_left fun r _ => BookRecord.encode_eq r
  case pt => exact List.map_congr_left fun p _ => positionBytes_eq p
  case aq => exact List.map_congr_left fun r _ => BookRecord.encode_eq r

theorem statusFlags_eq (s : State) :
    statusFlags s = BitVec.ofNat 8 ((if s.store.op = .idle then 0 else 1) + (if s.mu.overrun then 2 else 0)
      + (if s.ring.proofRun = none then 0 else 4) + (if s.iron.forward.sense = .stale then 8 else 0)
      + (if s.iron.rear.sense = .stale then 16 else 0)) := by
  have hstore : (s.store.op != .idle).toNat = if s.store.op = .idle then 0 else 1 := by
    by_cases h : s.store.op = .idle <;> simp [h]
  have hproof : 4 * s.ring.proofRun.isSome.toNat = if s.ring.proofRun = none then 0 else 4 := by
    cases s.ring.proofRun <;> rfl
  have hsense (b : SenseState) (w : Nat) : w * (b == .stale).toNat = if b = .stale then w else 0 := by
    cases b <;> simp
  rw [statusFlags, packBits_five, hstore, hproof, hsense, hsense, ite_eq_mul_toNat]

theorem statusRecord_eq (s : State) : statusRecord s = s.statusBytes := by
  rw [statusRecord, State.statusBytes, statusFlags_eq]
  simp only [List.append_assoc]
  rfl

/-! ### Successive records -/

theorem Table.getFrom_eq {α : Type} {n : Nat} [NeZero n] (t : Table α n) (i k : Nat) :
    t.getFrom i k = (successive n i k).map fun j => t.get (Fin.ofNat n j) := by
  induction k generalizing i with
  | zero => rfl
  | succ k ih =>
    have hmod (j : Nat) : Fin.ofNat n (j % n) = Fin.ofNat n j := Fin.ext (Nat.mod_mod _ _)
    rw [Table.getFrom, ih, successive, successive, List.range_succ_eq_map, List.map_cons, List.map_map, List.map_cons,
      hmod, Nat.add_zero, List.map_map, List.map_map]
    refine congrArg _ (List.map_congr_left fun d _ => ?_)
    simp only [Function.comp_apply, Nat.succ_eq_add_one, Nat.add_assoc, Nat.add_comm 1]

/-- The records of a table from index `n` on, one after the other (R160). -/
theorem Table.flatMap_getFrom {α : Type} {m : Nat} [NeZero m] (t : Table α m) (n k : Nat) {f g : α → List Byte}
    (h : ∀ x, f x = g x) :
    (t.getFrom n k).flatMap f = ((successive m n k).map fun i => g (t.get (Fin.ofNat m i))).flatten := by
  rw [Table.getFrom_eq, List.flatMap_def, List.map_map, funext h]
  rfl

/-! ### The checks of a READ -/

/-- The count and records of a READ answered OK (R160). -/
def State.readOk (s : State) (n k : Nat) (r : Region) : ReadOut :=
  ⟨.ok, BitVec.ofNat 8 (s.recordsRead n k r).length, (s.recordsRead n k r).flatten⟩

/-- The checks of a READ of a region read by index and count: form, then index (R159). -/
theorem readChecked_eq {p : List Byte} {hi : Nat} {indexOk : Bool} {records : List Byte} {out : ReadOut}
    (h : 1 ≤ reqCount p → reqCount p ≤ hi → indexOk = true → ReadOut.echoed p records = out) :
    readChecked p 1 hi indexOk records
      = if p.length = 4 ∧ 1 ≤ reqCount p ∧ reqCount p ≤ hi then
          if indexOk = true then out else .refused .range
        else .refused .length := by
  rw [readChecked]
  by_cases hform : p.length = 4 ∧ 1 ≤ reqCount p ∧ reqCount p ≤ hi
  · rw [if_neg (by omega), if_pos hform]
    obtain ⟨-, hlo, hhi⟩ := hform
    cases hindex : indexOk with
    | true => exact h hlo hhi hindex
    | false => rfl
  · rw [if_pos (by omega), if_neg hform]

/-- A READ of `k` records echoes its count (R160). -/
theorem ReadOut.echoed_eq {p : List Byte} {s : State} {r : Region} {records : List Byte}
    (hlen : (s.recordsRead (reqIndex p) (reqCount p) r).length = reqCount p)
    (hrec : records = (s.recordsRead (reqIndex p) (reqCount p) r).flatten) :
    ReadOut.echoed p records = s.readOk (reqIndex p) (reqCount p) r := by
  have hcount : BitVec.ofNat 8 (reqCount p) = byteAt p 3 := natByte_of_toNat _
  rw [State.readOk, hlen, hcount, hrec]
  rfl

/-- The number of records a READ in form and range returns is the number asked for, QUEUE and ALERTS apart (R160). -/
theorem recordsRead_length {s : State} {n k : Nat} {r : Region} (hk : 1 ≤ k) (hmost : k ≤ r.mostRead n)
    (hread : r.readable n k) (hqueue : r ≠ .queue) (halerts : r ≠ .alerts) : (s.recordsRead n k r).length = k := by
  have hone (h : k ≤ 1) : 1 = k := by omega
  have hmap : s.lineMap.list.length = 9 := s.lineMap.len
  cases r
  case title | dose | profile | comparator => simp [State.recordsRead, successive]
  case calibration | limits | node | protect | status | ident => exact hone hmost
  case linemap =>
    obtain ⟨h1, h9, hend⟩ := hread
    simp only [State.recordsRead, List.length_map, List.length_take, List.length_drop, hmap]
    omega
  case totals =>
    obtain ⟨h20, hend⟩ := hread
    simp only [State.recordsRead, List.length_map, List.length_take, List.length_drop, List.flatMap_cons,
      List.flatMap_nil, List.length_append, List.length_cons, List.length_nil]
    omega
  case queue => exact absurd rfl hqueue
  case alerts => exact absurd rfl halerts

/-- The outcome of a READ by its form and its index (R159). -/
theorem readOf_eq {p : List Byte} {s : State} {r : Region} [Decidable (r.readable (reqIndex p) (reqCount p))]
    (hqueue : r ≠ .queue) (halerts : r ≠ .alerts) :
    readOf r p s
      = if p.length = 4 ∧ 1 ≤ reqCount p ∧ reqCount p ≤ r.mostRead (reqIndex p) then
          if r.readable (reqIndex p) (reqCount p) then s.readOk (reqIndex p) (reqCount p) r else .refused .range
        else .refused .length := by
  have checked {indexOk : Bool} {records : List Byte} (hread : readOf r p s = readChecked p 1 (r.mostRead (reqIndex p)) indexOk records)
      (hindex : 1 ≤ reqCount p → (indexOk = true ↔ r.readable (reqIndex p) (reqCount p)))
      (hrec : records = (s.recordsRead (reqIndex p) (reqCount p) r).flatten) :
      readOf r p s
        = if p.length = 4 ∧ 1 ≤ reqCount p ∧ reqCount p ≤ r.mostRead (reqIndex p) then
            if r.readable (reqIndex p) (reqCount p) then s.readOk (reqIndex p) (reqCount p) r else .refused .range
          else .refused .length := by
    rw [hread, readChecked_eq (out := s.readOk (reqIndex p) (reqCount p) r) fun hlo hhi hi => ReadOut.echoed_eq
      (recordsRead_length hlo hhi ((hindex hlo).mp hi) hqueue halerts) hrec]
    by_cases hlo : 1 ≤ reqCount p
    · simp only [hindex hlo]
    · rw [if_neg fun hf => hlo hf.2.1, if_neg fun hf => hlo hf.2.1]
  cases r
  case title =>
    refine checked rfl (fun _ => decide_eq_true_iff) ?_
    rw [Table.flatMap_getFrom _ _ _ TitleRecord.encode_eq, State.recordsRead]
    by_cases hbank : reqIndex p < 512
    · simp only [if_pos hbank]
      rfl
    · simp only [if_neg hbank]
      rfl
  case dose =>
    exact checked rfl (fun _ => decide_eq_true_iff) (Table.flatMap_getFrom _ _ _ Recipe.encode_eq)
  case profile =>
    exact checked rfl (fun _ => decide_eq_true_iff) (Table.flatMap_getFrom _ _ _ Profile.encode_eq)
  case comparator =>
    exact checked rfl (fun _ => decide_eq_true_iff) (Table.flatMap_getFrom _ _ _ Comparator.encode_eq)
  case calibration => exact checked rfl (fun _ => decide_eq_true_iff) (List.append_nil _).symm
  case limits => exact checked rfl (fun _ => decide_eq_true_iff) (List.append_nil _).symm
  case node => exact checked rfl (fun _ => decide_eq_true_iff) rfl
  case protect => exact checked rfl (fun _ => decide_eq_true_iff) rfl
  case status =>
    exact checked rfl (fun _ => decide_eq_true_iff) ((statusRecord_eq s).trans (List.append_nil _).symm)
  case ident => exact checked rfl (fun _ => decide_eq_true_iff) rfl
  case linemap =>
    refine checked rfl (fun hk => decide_eq_true_iff.trans ?_) ?_
    · simp only [Region.readable]
      omega
    · exact ((List.flatMap_def ..).symm.trans (List.flatMap_singleton' _)).symm
  case totals =>
    refine checked rfl (fun hk => decide_eq_true_iff.trans ?_) (List.flatMap_def ..)
    simp only [Region.readable]
    omega
  case queue => exact absurd rfl hqueue
  case alerts => exact absurd rfl halerts

end Sys2Proof.Machine
end

section
/-! SUPPORT. READs and refused requests: their replies (R159, R160), the QUEUE (R164) and the ALERTS (R167). -/

namespace Sys2Proof.Machine

/-! ### Requests answered with a bare echo -/

/-- The REPLY to a request without records: status, and the fields it held, high byte of the index first (R160). -/
def echoReply (s : State) (tag : Byte) (st : Status) (p : List Byte) : Message := ⟨0, s.ring.ownNode, 0x28, tag, echo st p⟩

/-- A WRITE that is only answered. -/
theorem completes_write_respond {s : State} {h : Envelope} {p : List Byte} {st : Status} (ho : s.obeys h)
    (hp : p.length ≤ 56) (hr : write h.tag p s.arrival = respond h.tag st p s.arrival) :
    s.completes (.writeUnknownRegion h p) s.arrived [echoReply s.arrived h.tag st p] := by
  have hexec : exec (.writeUnknownRegion h p) s = .next (finish (respond h.tag st p s.arrival)) :=
    congrArg Host.Outcome.next ((exec_write ho hp).trans (congrArg finish hr))
  exact completes_of (e := s.arrival) (ms := [echoReply s.arrived h.tag st p]) hexec rfl
    ((State.arrived_phase s).trans ho.1) s.arrival_owes

/-- A READ that is only answered. -/
theorem completes_read_respond {s : State} {h : Envelope} {p : List Byte} {st : Status} (ho : s.obeys h)
    (hp : p.length ≤ 56) (hr : read h.tag p s.arrival = respond h.tag st p s.arrival) :
    s.completes (.alertsRead h p) s.arrived [echoReply s.arrived h.tag st p] := by
  have hexec : exec (.alertsRead h p) s = .next (finish (respond h.tag st p s.arrival)) :=
    congrArg Host.Outcome.next ((exec_read ho hp).trans (congrArg finish hr))
  exact completes_of (e := s.arrival) (ms := [echoReply s.arrived h.tag st p]) hexec rfl
    ((State.arrived_phase s).trans ho.1) s.arrival_owes

/-- The echo of a request that holds its index (R160). -/
theorem echo_held {p : List Byte} (h : 3 ≤ p.length) (st : Status) :
    echo st p = [st.code, byteAt p 0, byteAt p 1, byteAt p 2, byteAt p 3] := by
  rw [echo, if_pos h, bytes2_wordAt]
  rfl

/-- The echo of a request too short for its count (R160, log 18). -/
theorem echo_short {p : List Byte} (h : p.length < 4) (st : Status) :
    echo st p = [st.code, byteAt p 0, if p.length = 3 then byteAt p 1 else 0, if p.length = 3 then byteAt p 2 else 0, 0] := by
  have hcount : byteAt p 3 = 0 := by simp [byteAt, List.getElem?_eq_none (Nat.le_of_lt_succ h)]
  by_cases h3 : p.length = 3
  · rw [echo_held (by omega), hcount, if_pos h3, if_pos h3]
  · rw [echo, if_neg (by omega), hcount, if_neg h3, if_neg h3]
    rfl

/-- The codes 0x10 to 0x14 are those of the regions that are only read (Table 10-1). -/
theorem Region.readOnly_of_code {b : Byte} (hlo : 0x10 ≤ b.toNat) (hhi : b.toNat ≤ 0x14) :
    ∃ r : Region, Region.ofCode b = some r
      ∧ (r = .status ∨ r = .totals ∨ r = .ident ∨ r = .queue ∨ r = .alerts) := by
  have hcode (r : Region) (hr : b.toNat = r.code.toNat) : Region.ofCode b = some r :=
    (Region.ofCode_iff b r).mpr (BitVec.eq_of_toNat_eq hr.symm)
  have hcases : b.toNat = 0x10 ∨ b.toNat = 0x11 ∨ b.toNat = 0x12 ∨ b.toNat = 0x13 ∨ b.toNat = 0x14 := by omega
  rcases hcases with hb | hb | hb | hb | hb
  · exact ⟨.status, hcode _ hb, .inl rfl⟩
  · exact ⟨.totals, hcode _ hb, .inr (.inl rfl)⟩
  · exact ⟨.ident, hcode _ hb, .inr (.inr (.inl rfl))⟩
  · exact ⟨.queue, hcode _ hb, .inr (.inr (.inr (.inl rfl)))⟩
  · exact ⟨.alerts, hcode _ hb, .inr (.inr (.inr (.inr rfl)))⟩

theorem writeTo_readOnly {r : Region} (h : r = .status ∨ r = .totals ∨ r = .ident ∨ r = .queue ∨ r = .alerts) (tag : Byte)
    (p : List Byte) (e : Ev) : writeTo r tag p e = respond tag .unknown p e := by
  rcases h with rfl | rfl | rfl | rfl | rfl <;> rfl

theorem write_named {p : List Byte} {r : Region} (h4 : 4 ≤ p.length) (hr : Region.ofCode (byteAt p 0) = some r) (tag : Byte)
    (e : Ev) : write tag p e = writeTo r tag p e := by
  rw [write, if_neg (by omega), hr]

theorem write_unnamed {p : List Byte} (h4 : 4 ≤ p.length) (hr : Region.ofCode (byteAt p 0) = none) (tag : Byte)
    (e : Ev) : write tag p e = respond tag .unknown p e := by
  rw [write, if_neg (by omega), hr]

theorem read_unnamed {p : List Byte} (h4 : 4 ≤ p.length) (hr : Region.ofCode (byteAt p 0) = none) (tag : Byte)
    (e : Ev) : read tag p e = respond tag .unknown p e := by
  rw [read, if_neg (by omega), hr]

theorem read_named {p : List Byte} {r : Region} (h4 : 4 ≤ p.length) (hr : Region.ofCode (byteAt p 0) = some r) (tag : Byte)
    (e : Ev) : read tag p e
      = hand (readReply e.s tag p (readOf r p e.s)) { e with s := afterRead r p (readOf r p e.s) e.s } := by
  rw [read, if_neg (by omega), hr]

/-- Settles O34: a request too short, of no region, or a WRITE of a region only read. -/
theorem unknownRegionsAnswered : Obligations.UnknownRegionsAnswered := by
  intro h p s ho hp a short unknown
  have hshort (hlen : p.length < 4) : echoReply a h.tag .length p = short := by
    rw [echoReply, echo_short hlen]
    rfl
  have hunknown (hlen : 4 ≤ p.length) : echoReply a h.tag .unknown p = unknown := by
    rw [echoReply, echo_held (by omega)]
    rfl
  refine ⟨fun hlen => ?_, fun hlen hcode => ?_, fun hlen hlo hhi => ?_⟩
  · rw [← hshort hlen]
    exact ⟨completes_write_respond ho hp (if_pos hlen), completes_read_respond ho hp (if_pos hlen)⟩
  · have hnone : Region.ofCode (byteAt p 0) = none := by
      cases hr : Region.ofCode (byteAt p 0) with
      | none => rfl
      | some r => exact absurd ((Region.ofCode_iff _ _).mp hr) (hcode r)
    rw [← hunknown hlen]
    exact ⟨completes_write_respond ho hp (write_unnamed hlen hnone _ _),
      completes_read_respond ho hp (read_unnamed hlen hnone _ _)⟩
  · obtain ⟨r, hr, honly⟩ := Region.readOnly_of_code hlo hhi
    rw [← hunknown hlen]
    exact completes_write_respond ho hp ((write_named hlen hr _ _).trans (writeTo_readOnly honly _ _ _))

/-! ### QUEUE -/

/-- The index of a QUEUE READ: the collection in its high byte, the position in its low one (R164). -/
theorem queue_index (p : List Byte) : natAt2 p 1 / 256 = natAt1 p 1 ∧ natAt2 p 1 % 256 = natAt1 p 2 := by
  have hlow := natAt1_le p 2
  have hindex : natAt2 p 1 = 256 * natAt1 p 1 + natAt1 p 2 := natAt2_eq p 1
  omega

theorem Collection.code_of_ofCode {n : Nat} {c : Collection} (h : Collection.ofCode n = some c) : n = c.code := by
  unfold Collection.ofCode at h
  split at h <;> cases h <;> rfl

theorem Collection.ofCode_eq_none_iff {n : Nat} : Collection.ofCode n = none ↔ n = 0 ∨ 6 < n := by
  refine ⟨fun h => ?_, Collection.ofCode_eq_none⟩
  by_contra hn
  have hcases : n = 1 ∨ n = 2 ∨ n = 3 ∨ n = 4 ∨ n = 5 ∨ n = 6 := by omega
  rcases hcases with rfl | rfl | rfl | rfl | rfl | rfl <;> cases h

/-- The most records of a QUEUE READ: those of its collection, or the widest of Table 10-4 (log 19). -/
theorem mostRead_queue {p : List Byte} :
    Region.mostRead (natAt2 p 1) .queue = match Collection.ofCode (natAt1 p 1) with
      | some c => c.perReply
      | none => 5 := by
  rw [Region.mostRead, (queue_index p).1]
  cases hc : Collection.ofCode (natAt1 p 1) with
  | none =>
    have hn := Collection.ofCode_eq_none_iff.mp hc
    simp only
    rw [if_neg (by omega), if_neg (by omega), if_neg (by omega)]
  | some c =>
    rw [Collection.code_of_ofCode hc]
    cases c <;> rfl

/-- A QUEUE READ is in range when it names a collection and a position of it (R164). -/
theorem readable_queue {p : List Byte} (k : Nat) :
    Region.readable (natAt2 p 1) k .queue
      ↔ ∃ c, Collection.ofCode (natAt1 p 1) = some c ∧ 1 ≤ natAt1 p 2 ∧ natAt1 p 2 ≤ c.capacity := by
  obtain ⟨hhigh, hlow⟩ := queue_index p
  rw [Region.readable, hhigh, hlow]
  cases hc : Collection.ofCode (natAt1 p 1) with
  | none =>
    have hn := Collection.ofCode_eq_none_iff.mp hc
    simp only [reduceCtorEq, false_and, exists_false, iff_false]
    omega
  | some c =>
    have hcode := Collection.code_of_ofCode hc
    simp only [Option.some.injEq, exists_eq_left']
    rw [hcode]
    cases c <;> simp [Collection.code, Collection.capacity, Config.bqCapacity, Config.cqCapacity, Config.jqCapacity,
      Config.tqCapacity, Config.ptPositions, Config.aqCapacity]

theorem readQueue_unnamed {p : List Byte} {s : State} (hc : Collection.ofCode (natAt1 p 1) = none) :
    readQueue p s = if p.length = 4 ∧ 1 ≤ reqCount p ∧ reqCount p ≤ 5 then .refused .range else .refused .length := by
  rw [readQueue, hc]
  by_cases hform : p.length = 4 ∧ 1 ≤ reqCount p ∧ reqCount p ≤ 5
  · rw [if_neg (by omega), if_pos hform]
  · rw [if_pos (by omega), if_neg hform]

theorem Collection.perReply_le (c : Collection) : c.perReply ≤ 5 := by cases c <;> decide

theorem readQueue_named {p : List Byte} {s : State} {c : Collection} (hc : Collection.ofCode (natAt1 p 1) = some c) :
    readQueue p s = if p.length = 4 ∧ 1 ≤ reqCount p ∧ reqCount p ≤ c.perReply then
        if 1 ≤ natAt1 p 2 ∧ natAt1 p 2 ≤ c.capacity then s.readOk (reqIndex p) (reqCount p) .queue else .refused .range
      else .refused .length := by
  have hfive := c.perReply_le
  have hrecords : s.recordsRead (reqIndex p) (reqCount p) .queue
      = ((s.queues.encoded c).drop (queuePosition p - 1)).take (reqCount p) := by
    obtain ⟨hhigh, hlow⟩ := queue_index p
    rw [State.recordsRead, reqIndex, hhigh, hlow, Collection.code_of_ofCode hc, Queues.encoded_eq]
    rfl
  have hok : (⟨.ok, natByte (((s.queues.encoded c).drop (queuePosition p - 1)).take (reqCount p)).length,
      (((s.queues.encoded c).drop (queuePosition p - 1)).take (reqCount p)).flatten⟩ : ReadOut)
      = s.readOk (reqIndex p) (reqCount p) .queue := by
    rw [State.readOk, hrecords]
    rfl
  have hposition : queuePosition p = natAt1 p 2 := rfl
  rw [readQueue, hc]
  by_cases hform : p.length = 4 ∧ 1 ≤ reqCount p ∧ reqCount p ≤ c.perReply
  · rw [if_pos hform]
    obtain ⟨hlen, hlo, hhi⟩ := hform
    rw [if_neg (by omega)]
    refine (if_neg (Nat.not_lt.mpr hhi)).trans ?_
    by_cases hpos : 1 ≤ natAt1 p 2 ∧ natAt1 p 2 ≤ c.capacity
    · exact (if_neg (by omega)).trans (hok.trans (if_pos hpos).symm)
    · rw [if_pos (by omega), if_neg hpos]
  · rw [if_neg hform]
    by_cases hmalformed : p.length ≠ 4 ∨ reqCount p < 1 ∨ 5 < reqCount p
    · rw [if_pos hmalformed]
    · rw [if_neg hmalformed]
      exact if_pos (by omega)

/-- The outcome of a READ of any region but ALERTS, by its form and its index (R159). -/
theorem readOf_settles {p : List Byte} {s : State} {r : Region} (halerts : r ≠ .alerts) :
    (¬ (p.length = 4 ∧ 1 ≤ reqCount p ∧ reqCount p ≤ r.mostRead (reqIndex p)) → readOf r p s = .refused .length)
    ∧ (p.length = 4 ∧ 1 ≤ reqCount p ∧ reqCount p ≤ r.mostRead (reqIndex p) →
      (¬ r.readable (reqIndex p) (reqCount p) → readOf r p s = .refused .range)
      ∧ (r.readable (reqIndex p) (reqCount p) → readOf r p s = s.readOk (reqIndex p) (reqCount p) r)) := by
  by_cases hqueue : r = .queue
  · subst hqueue
    have hmost : Region.mostRead (reqIndex p) .queue = _ := mostRead_queue (p := p)
    have hread : Region.readable (reqIndex p) (reqCount p) .queue ↔ _ := readable_queue (p := p) (reqCount p)
    rw [hmost, hread]
    cases hc : Collection.ofCode (natAt1 p 1) with
    | none =>
      have hout := readQueue_unnamed (s := s) hc
      refine ⟨fun hform => hout.trans (if_neg hform), fun hform => ⟨fun _ => hout.trans (if_pos hform), fun hr => ?_⟩⟩
      obtain ⟨c, hc', -⟩ := hr
      cases hc'
    | some c =>
      have hout := readQueue_named (s := s) hc
      simp only [Option.some.injEq, exists_eq_left']
      exact ⟨fun hform => hout.trans (if_neg hform), fun hform =>
        ⟨fun hr => hout.trans ((if_pos hform).trans (if_neg hr)), fun hr => hout.trans ((if_pos hform).trans (if_pos hr))⟩⟩
  · classical
    have hout := readOf_eq (p := p) (s := s) hqueue halerts
    exact ⟨fun hform => hout.trans (if_neg hform), fun hform =>
      ⟨fun hr => hout.trans ((if_pos hform).trans (if_neg hr)), fun hr => hout.trans ((if_pos hform).trans (if_pos hr))⟩⟩

theorem readReply_refused {p : List Byte} {st : Status} (h : 3 ≤ p.length) (hst : st ≠ .ok) (s : State) (tag : Byte) :
    readReply s tag p (.refused st)
      = ⟨0, s.ring.ownNode, 0x28, tag, [st.code, byteAt p 0, byteAt p 1, byteAt p 2, byteAt p 3] ++ []⟩ := by
  rw [readReply, if_neg (show (ReadOut.refused st).status ≠ .ok from hst), List.append_nil,
    show (ReadOut.refused st).status = st from rfl, echo_held h]
  rfl

theorem readReply_ok (s : State) (tag : Byte) (p : List Byte) (n k : Nat) (r : Region) :
    readReply s tag p (s.readOk n k r)
      = ⟨0, s.ring.ownNode, 0x28, tag, [0, byteAt p 0, byteAt p 1, byteAt p 2, BitVec.ofNat 8 (s.recordsRead n k r).length]
        ++ (s.recordsRead n k r).flatten⟩ := by
  rw [readReply, if_pos (show (s.readOk n k r).status = .ok from rfl), bytes2_wordAt]
  rfl

/-- Settles O35: each outcome of a READ, answered by its REPLY with nothing changed. -/
theorem readsChangeNothing : Obligations.ReadsChangeNothing := by
  intro h p r s ho hp4 hp56 hcode halerts a n k answers form
  have hregion : Region.ofCode (byteAt p 0) = some r := (Region.ofCode_iff _ _).mpr hcode.symm
  obtain ⟨badForm, goodForm⟩ := readOf_settles (p := p) (s := a) halerts
  have answered {o : ReadOut} {x : List Byte} (ho' : readOf r p a = o)
      (hx : readReply a h.tag p o = ⟨0, a.ring.ownNode, 0x28, h.tag, x⟩) :
      s.completes (.alertsRead h p) a [⟨0, a.ring.ownNode, 0x28, h.tag, x⟩] := by
    have hexec : exec (.alertsRead h p) s = .next (finish (handAll [readReply a h.tag p o] s.arrival)) := by
      have hevent := read_named hp4 hregion h.tag s.arrival
      rw [State.arrival_s, ho', afterRead, if_neg fun hc => halerts hc.1] at hevent
      exact congrArg Host.Outcome.next ((exec_read ho hp56).trans (congrArg finish hevent))
    rw [← hx]
    exact completes_of (e := s.arrival) hexec rfl ((State.arrived_phase s).trans ho.1) s.arrival_owes
  have refused (st : Status) (hst : st ≠ .ok) :
      readReply a h.tag p (.refused st)
        = ⟨0, a.ring.ownNode, 0x28, h.tag, [st.code, r.code, byteAt p 1, byteAt p 2, byteAt p 3] ++ []⟩ := by
    rw [readReply_refused (by omega) hst, hcode]
  refine ⟨fun hform => ?_, fun hform hread => ?_, fun hform hread => ⟨?_, fun hqueue => ?_⟩⟩
  · exact answered (badForm hform) (refused .length (by decide))
  · exact answered ((goodForm hform).1 hread) (refused .range (by decide))
  · refine answered ((goodForm hform).2 hread) ((readReply_ok ..).trans ?_)
    rw [hcode]
    rfl
  · obtain ⟨-, hlo, hhi⟩ := hform
    exact recordsRead_length hlo hhi hread hqueue halerts

/-! ### ALERTS -/

theorem Management.removed_all {mu : Management} {n : Nat} (h : mu.log.length ≤ n) : mu.removed n = ⟨[], false, .low⟩ :=
  if_pos (List.drop_eq_nil_iff.mpr h)

theorem Management.removed_some {mu : Management} {n : Nat} (h : n < mu.log.length) :
    mu.removed n = { mu with log := mu.log.drop n } :=
  if_neg fun hd => Nat.not_lt.mpr (List.drop_eq_nil_iff.mp hd) h

/-- Settles O36: the records returned are removed; the ALERT that the arrival owes goes out all the same (log 25). -/
theorem alertsReadRemoves : Obligations.AlertsReadRemoves := by
  intro h p s ho hp4 hp56 hcode a n k reply removes
  have hregion : Region.ofCode (byteAt p 0) = some .alerts := (Region.ofCode_iff _ _).mpr hcode.symm
  have hevent := read_named hp4 hregion h.tag s.arrival
  have executed {o : ReadOut} (ho' : readAlerts p a = o) :
      exec (.alertsRead h p) s
        = .next (finish (handAll [readReply a h.tag p o] { s.arrival with s := afterRead .alerts p o a })) := by
    rw [State.arrival_s, show readOf .alerts p s.arrived = o from ho'] at hevent
    exact congrArg Host.Outcome.next ((exec_read ho hp56).trans (congrArg finish hevent))
  have running : a.phase = .running := (State.arrived_phase s).trans ho.1
  have refused {st : Status} (hst : st ≠ .ok) (ho' : readAlerts p a = .refused st) :
      s.completes (.alertsRead h p) a [reply st.code (byteAt p 3) []] := by
    have hreply : readReply a h.tag p (.refused st) = reply st.code (byteAt p 3) [] := by
      rw [readReply_refused (by omega) hst, hcode]
    have hexec := executed ho'
    rw [hreply, afterRead, if_neg fun hc => hst hc.2] at hexec
    exact completes_of (e := s.arrival) hexec rfl running s.arrival_owes
  have hcount : reqCount p = k := rfl
  refine ⟨fun hform => ?_, fun hlen hlo hhi hn => ?_, fun hlen hlo hhi hn => ?_⟩
  · exact refused (st := .length) (by decide) (if_pos (by rw [hcount]; omega))
  · exact refused (st := .range) (by decide) ((if_neg (by rw [hcount]; omega)).trans (if_pos hn))
  · have hread : readAlerts p a = a.readOk n k .alerts := by
      have hrecords : (a.mu.log.take k).flatMap Alert.encode = (a.recordsRead n k .alerts).flatten := List.flatMap_def ..
      have hout : readAlerts p a = ⟨.ok, natByte (a.mu.log.take k).length, (a.mu.log.take k).flatMap Alert.encode⟩ :=
        (if_neg (by rw [hcount]; omega)).trans (if_neg (not_not_intro hn))
      rw [hout, hrecords, State.readOk, State.recordsRead, List.length_map]
      rfl
    have hreply : readReply a h.tag p (a.readOk n k .alerts)
        = reply 0 (BitVec.ofNat 8 (min k a.mu.log.length)) (a.recordsRead n k .alerts).flatten := by
      have hcount : (a.recordsRead n k .alerts).length = min k a.mu.log.length := by
        rw [State.recordsRead, List.length_map, List.length_take]
      rw [readReply_ok, hcode, hcount]
    have hexec := executed hread
    rw [hreply, afterRead, if_pos ⟨rfl, rfl⟩] at hexec
    have removed (mu : Management) (hmu : a.mu.removed k = mu) : removes mu := by
      subst hmu
      have hover := finish_handsOver (e := { s.arrival with s := { a with mu := a.mu.removed k } })
        (ms := [reply 0 (BitVec.ofNat 8 (min k a.mu.log.length)) (a.recordsRead n k .alerts).flatten]) running
      have hdue := Ev.owes_alertFor s.arrival_owes
      exact ⟨_, hexec, hdue ▸ hover⟩
    exact ⟨fun hall => removed _ (Management.removed_all hall), fun hsome => removed _ (Management.removed_some hsome)⟩

end Sys2Proof.Machine
end

section
/-! SUPPORT. Messages taken for the part (R149): MARK (R13, R14, R35), SENSE (R96 to R99) and SIGHT (R37 to R46). -/

namespace Sys2Proof.Machine

/-! ### A taken message and its completion -/

/-- A command whose message is taken completes with what the message's block makes of the state it finds. -/
theorem completes_taken {c : Instr} {m : Message} {s u : State} {e : Ev} (hc : exec c s = .next (receive m s))
    (ht : s.takes m) (hk : takenWhenBroadcast m = true) (hr : take m (s.hearing m) = e) (hu : e.s = u)
    (hp : u.phase = (s.heard m).phase) (howes : e.owes s.mu.log) : s.completes c u e.feedMessages := by
  have hrun : u.phase = .running := hp.trans ((State.heard_phase s m).trans ht.1.1)
  rw [receive_takes ht hk, hr] at hc
  exact completes_of (ms := []) hc hu hrun howes

/-- The same of a message that forms no FEED order. -/
theorem completes_taken_quiet {c : Instr} {m : Message} {s u : State} {e : Ev} (hc : exec c s = .next (receive m s))
    (ht : s.takes m) (hk : takenWhenBroadcast m = true) (hr : take m (s.hearing m) = e) (hu : e.s = u)
    (hp : u.phase = (s.heard m).phase) (hf : e.feeds = []) (howes : e.owes s.mu.log) : s.completes c u [] := by
  have hdone := completes_taken hc ht hk hr hu hp howes
  rwa [Ev.feedMessages, hf] at hdone

/-- A taken message that has no effect. -/
theorem completes_taken_unchanged {c : Instr} {m : Message} {s : State} (hc : exec c s = .next (receive m s))
    (ht : s.takes m) (hk : takenWhenBroadcast m = true) (hr : take m (s.hearing m) = s.hearing m) :
    s.completes c (s.heard m) [] :=
  completes_taken_quiet hc ht hk hr rfl rfl rfl (s.hearing_owes m)

/-- A taken message whose only effect is a record. -/
theorem completes_taken_logging {c : Instr} {m : Message} {s : State} {code : AlertCode} {stage : Byte} {serial : Serial}
    {key : TitleKey} {detail : Word} (hc : exec c s = .next (receive m s)) (ht : s.takes m)
    (hk : takenWhenBroadcast m = true) (hr : take m (s.hearing m) = logAlert code stage serial key detail (s.hearing m)) :
    s.completes c ((s.heard m).logging code stage serial key detail) [] :=
  completes_taken_quiet hc ht hk hr rfl rfl rfl (Ev.owes_logAlert (s.hearing_owes m) ..)

/-- The source check: the line map names the source for the role, which is assigned (R39, R155). -/
theorem LineMap.matches_iff (s : State) (role : Nat) (src : Node) :
    s.lineMap.matches role src = true ↔ s.plays src role := by
  rw [LineMap.matches, State.plays, Bool.and_eq_true, bne_iff_ne, beq_iff_eq]
  constructor
  · rintro ⟨hne, rfl⟩
    exact ⟨rfl, hne⟩
  · rintro ⟨rfl, hne⟩
    exact ⟨hne, rfl⟩

/-! ### MARK -/

/-- The Title Table at an armed MARK: the banks exchanged, the flag cleared, the proof counts those of the bank that
becomes active (R14, R15). -/
theorem TitleTable.swap_eq {t : TitleTable} {left : Table Nat 512}
    (h : ∀ i, left.get i = (t.standbyBank.get i).proofCount) :
    t.swap = { t with active := t.active.other, armed := false, proofLeft := left } := by
  have hleft : t.standbyBank.map TitleRecord.proofCount = left :=
    Table.ext_get fun i => (Table.get_map _ _ i).trans (h i).symm
  rw [← hleft]
  rfl

theorem mark_unarmed {src : Node} {p : List Byte} {e : Ev} (hlen : p.length = 2) (hsrc : src = 0)
    (h : e.s.titles.armed = false) :
    mark src p e = { e with s := { e.s with
      dose := e.s.dose.clearCarries, titles := { e.s.titles with lastMark := wordAt p 0 } } } := by
  have hn : ¬ e.s.titles.armed = true := by simp [h]
  rw [mark, if_pos ⟨hlen, hsrc⟩]
  dsimp only
  rw [if_neg hn, if_neg hn]

theorem mark_armed {src : Node} {p : List Byte} {e : Ev} (hlen : p.length = 2) (hsrc : src = 0)
    (h : e.s.titles.armed = true) :
    mark src p e = logAlert .bankSwapped 0 0 0 (wordAt p 0) { e with s := { e.s with
      dose := e.s.dose.clearCarries, titles := ({ e.s.titles with lastMark := wordAt p 0 } : TitleTable).swap } } := by
  rw [mark, if_pos ⟨hlen, hsrc⟩]
  dsimp only
  rw [if_pos h, if_pos h]

/-- Settles O41: a MARK of node 0 by whether the flag is set; any other does nothing. -/
theorem markSwapsBanks : Obligations.MarkSwapsBanks := by
  refine ⟨fun t b => ⟨fun ha => ?_, fun hb => ?_⟩, fun h p s ht => ?_⟩
  · simp only [TitleTable.activeBank, TitleTable.standbyBank, TitleTable.setStandby, ha]
    exact ⟨rfl, rfl, rfl, trivial⟩
  · simp only [TitleTable.activeBank, TitleTable.standbyBank, TitleTable.setStandby, hb]
    exact ⟨rfl, rfl, rfl, trivial⟩
  · intro x dose
    refine ⟨fun hsrc hlen harmed => ?_, fun hsrc hlen harmed left hleft => ?_, fun hnot => ?_⟩
    · exact completes_taken_quiet rfl ht rfl (mark_unarmed hlen hsrc harmed) rfl rfl rfl
        (Ev.owes_of_eq (s.hearing_owes _) rfl rfl)
    · have hswap : ({ x.titles with lastMark := wordAt p 0 } : TitleTable).swap
          = { x.titles with
            active := x.titles.active.other, armed := false, lastMark := wordAt p 0, proofLeft := left } :=
        TitleTable.swap_eq hleft
      have hmark := mark_armed (e := s.hearing (h.message 0x04 p)) hlen hsrc harmed
      rw [State.hearing_s, hswap] at hmark
      exact completes_taken_quiet rfl ht rfl hmark rfl rfl rfl
        (Ev.owes_logAlert (e := { s.hearing (h.message 0x04 p) with s := _ })
          (Ev.owes_of_eq (s.hearing_owes _) rfl rfl) ..)
    · exact completes_taken_unchanged rfl ht rfl (if_neg fun hc => hnot ⟨hc.2, hc.1⟩)

/-! ### SENSE -/

theorem take_sense (h : Envelope) (p : List Byte) (e : Ev) : take (h.message 0x03 p) e = sense h.src p e := rfl

theorem Comparator.tests_iff (c : Comparator) (v : Int) : c.tests v = true ↔ c.meets v := by
  unfold Comparator.tests Comparator.meets
  cases c.config.direction <;> cases c.on <;> simp

/-- What a comparator becomes at a reading is fixed by Table 6-4. -/
theorem Comparator.eq_read_of_moves {c d : Comparator} {v : Int} (h : c.moves d v) : d = c.read v := by
  obtain ⟨hconfig, hoff, hmiss, hcount, hturn⟩ := h
  have same {on : Bool} {tally : Nat} (hd : d.on = on ∧ d.tally = tally) : d = ⟨c.config, on, tally⟩ := by
    obtain ⟨config, on', tally'⟩ := d
    obtain ⟨rfl, rfl⟩ := hd
    rw [← show config = c.config from hconfig]
  rw [Comparator.read]
  by_cases henable : c.config.enable = true
  · rw [if_pos henable]
    by_cases htest : c.tests v = true
    · have hmeets := (Comparator.tests_iff c v).mp htest
      rw [if_pos htest]
      by_cases hconfirm : c.tally + 1 = c.config.confirm
      · rw [if_pos hconfirm]
        exact same (hturn henable hmeets hconfirm)
      · rw [if_neg hconfirm]
        exact same (hcount henable hmeets hconfirm)
    · rw [if_neg htest]
      exact same (hmiss henable (mt (Comparator.tests_iff c v).mpr htest))
  · rw [if_neg henable]
    exact hoff (by simpa using henable)

/-- A reading of one comparator: its new state, and the record of its change of condition (R97, R98). -/
theorem senseComparator_s (i : Fin 4) (v : Int) (e : Ev) :
    (senseComparator i v e).s
      = (e.s.withComparators (e.s.iron.comparators.set i ((e.s.iron.comparators.get i).read v))).loggingIf
        ((e.s.iron.comparators.get i).on != ((e.s.iron.comparators.get i).read v).on)
        (if ((e.s.iron.comparators.get i).read v).on then .ironAlarmOn else .ironAlarmOff) 17 0 0
        (BitVec.ofNat 16 i.val) := by
  have hcode {a b : Bool} (hab : b ≠ a) : (if a then AlertCode.ironAlarmOff else .ironAlarmOn)
      = if b then .ironAlarmOn else .ironAlarmOff := by
    cases a <;> cases b <;> simp at hab ⊢
  by_cases hkept : ((e.s.iron.comparators.get i).read v).on = (e.s.iron.comparators.get i).on
  · rw [senseComparator, if_pos hkept, State.loggingIf, if_neg (by simp [hkept])]
    rfl
  · rw [senseComparator, if_neg hkept, hcode hkept, State.loggingIf,
      if_pos (bne_iff_ne.mpr (Ne.symm hkept))]
    rfl

theorem senseComparator_feeds (i : Fin 4) (v : Int) (e : Ev) : (senseComparator i v e).feeds = e.feeds := by
  simp only [senseComparator, apply_ite Ev.feeds, logAlert_feeds, ite_self]

theorem Ev.owes_senseComparator {before : List Alert} {e : Ev} (h : e.owes before) (i : Fin 4) (v : Int) :
    (senseComparator i v e).owes before := by
  rw [senseComparator]
  dsimp only
  split
  · exact Ev.owes_of_eq h rfl rfl
  · exact Ev.owes_logAlert (Ev.owes_of_eq h rfl rfl) ..

theorem State.loggingIf_withComparators (c : Bool) (code : AlertCode) (stage : Byte) (serial : Serial) (key : TitleKey)
    (detail : Word) (t : Table Comparator 4) (s : State) :
    (s.loggingIf c code stage serial key detail).withComparators t
      = (s.withComparators t).loggingIf c code stage serial key detail := by
  cases c <;> rfl

/-- A reading of the two comparators `lo` and `hi` of a bank, the records in index order (R98). -/
theorem senseComparators_pair {lo hi : Fin 4} (hne : lo ≠ hi) {v : Int} {e : Ev} {t : Table Comparator 4}
    (hlo : t.get lo = (e.s.iron.comparators.get lo).read v) (hhi : t.get hi = (e.s.iron.comparators.get hi).read v)
    (hother : ∀ i, i ≠ lo → i ≠ hi → t.get i = e.s.iron.comparators.get i) :
    (senseComparators [lo, hi] v e).s
      = ((e.s.withComparators t).loggingIf ((e.s.iron.comparators.get lo).on != (t.get lo).on)
          (if (t.get lo).on then .ironAlarmOn else .ironAlarmOff) 17 0 0 (BitVec.ofNat 16 lo.val)).loggingIf
        ((e.s.iron.comparators.get hi).on != (t.get hi).on)
        (if (t.get hi).on then .ironAlarmOn else .ironAlarmOff) 17 0 0 (BitVec.ofNat 16 hi.val) := by
  have hfirst : (senseComparator lo v e).s.iron.comparators
      = e.s.iron.comparators.set lo ((e.s.iron.comparators.get lo).read v) := by
    rw [senseComparator_s, State.loggingIf_iron]
    rfl
  have hsecond : (senseComparator lo v e).s.iron.comparators.get hi = e.s.iron.comparators.get hi := by
    rw [hfirst, Table.get_set_other _ _ hne]
  have htable : (e.s.iron.comparators.set lo ((e.s.iron.comparators.get lo).read v)).set hi
      ((e.s.iron.comparators.get hi).read v) = t := by
    refine Table.ext_get fun i => ?_
    by_cases hihi : hi = i
    · subst hihi
      rw [Table.get_set_same, hhi]
    · rw [Table.get_set_other _ _ hihi]
      by_cases hilo : lo = i
      · subst hilo
        rw [Table.get_set_same, hlo]
      · rw [Table.get_set_other _ _ hilo, hother i (Ne.symm hilo) (Ne.symm hihi)]
  rw [senseComparators, senseComparators, senseComparators, senseComparator_s hi, hsecond, hfirst, htable,
    senseComparator_s lo, State.loggingIf_withComparators, hlo, hhi]
  rfl

theorem senseBank_eq_none {p : List Byte} (h : ¬ (p.length = 3 ∧ (byteAt p 0 = 0 ∨ byteAt p 0 = 1))) :
    senseBank p = none := by
  rw [senseBank]
  by_cases hlen : p.length = 3
  · rw [if_pos hlen, if_neg fun h0 => h ⟨hlen, .inl h0⟩, if_neg fun h1 => h ⟨hlen, .inr h1⟩]
  · rw [if_neg hlen]

/-- A SENSE of wrong form or source is rejected (R96). -/
theorem sense_rejected {src : Node} {p : List Byte} {e : Ev}
    (h : ¬ (p.length = 3 ∧ (byteAt p 0 = 0 ∨ byteAt p 0 = 1) ∧ e.s.plays src 8)) :
    sense src p e = senseRejected src e := by
  rw [sense]
  by_cases hform : p.length = 3 ∧ (byteAt p 0 = 0 ∨ byteAt p 0 = 1)
  · obtain ⟨hlen, hbank⟩ := hform
    have hsrc : ¬ e.s.lineMap.matches 8 src = true := fun hm =>
      h ⟨hlen, hbank, (LineMap.matches_iff _ _ _).mp hm⟩
    cases hb : senseBank p with
    | none => rfl
    | some b => exact if_neg hsrc
  · rw [senseBank_eq_none hform]

/-- The bank record a taken SENSE leaves does not touch what is logged. -/
theorem State.loggingIf_setBank (c : Bool) (code : AlertCode) (stage : Byte) (serial : Serial) (key : TitleKey)
    (detail : Word) (r : BankRecord) (b : IronBank) (s : State) :
    { s.loggingIf c code stage serial key detail with
        iron := (s.loggingIf c code stage serial key detail).iron.setBank r b }
      = ({ s with iron := s.iron.setBank r b }).loggingIf c code stage serial key detail := by
  cases c <;> rfl

theorem senseTaken_s {b : IronBank} {lo hi : Fin 4} (hb : comparatorsOf b = [lo, hi]) (hne : lo ≠ hi) {reading : Int}
    {e : Ev} {t : Table Comparator 4}
    (hlo : t.get lo = (e.s.iron.comparators.get lo).read (clampInt (-400) 3000 reading))
    (hhi : t.get hi = (e.s.iron.comparators.get hi).read (clampInt (-400) 3000 reading))
    (hother : ∀ i, i ≠ lo → i ≠ hi → t.get i = e.s.iron.comparators.get i) :
    (senseTaken b reading e).s
      = (({ e.s with iron := { e.s.iron with comparators := t }.setBank ⟨.fresh, 0⟩ b }).loggingIf
          ((e.s.iron.comparators.get lo).on != (t.get lo).on)
          (if (t.get lo).on then .ironAlarmOn else .ironAlarmOff) 17 0 0 (BitVec.ofNat 16 lo.val)).loggingIf
        ((e.s.iron.comparators.get hi).on != (t.get hi).on)
        (if (t.get hi).on then .ironAlarmOn else .ironAlarmOff) 17 0 0 (BitVec.ofNat 16 hi.val) := by
  have hpair := senseComparators_pair hne hlo hhi hother
  rw [senseTaken, hb]
  dsimp only
  rw [hpair, State.loggingIf_setBank, State.loggingIf_setBank]
  rfl

theorem senseTaken_feeds (b : IronBank) (reading : Int) (e : Ev) : (senseTaken b reading e).feeds = e.feeds := by
  cases b <;> simp only [senseTaken, comparatorsOf, senseComparators, senseComparator_feeds]

theorem Ev.owes_senseTaken {before : List Alert} {e : Ev} (h : e.owes before) (b : IronBank) (reading : Int) :
    (senseTaken b reading e).owes before := by
  have hpair (lo hi : Fin 4) (v : Int) : (senseComparators [lo, hi] v e).owes before :=
    Ev.owes_senseComparator (Ev.owes_senseComparator h lo v) hi v
  cases b
  · exact Ev.owes_of_eq (hpair 0 1 _) rfl rfl
  · exact Ev.owes_of_eq (hpair 2 3 _) rfl rfl

theorem State.loggingIf_phase (c : Bool) (code : AlertCode) (stage : Byte) (serial : Serial) (key : TitleKey)
    (detail : Word) (s : State) : (s.loggingIf c code stage serial key detail).phase = s.phase := by
  cases c <;> rfl

/-- Settles O42: a SENSE taken by the bank it names, or rejected. -/
theorem readingsMoveComparators : Obligations.ReadingsMoveComparators := by
  intro h p c s ht hc x v good lo hi changes
  have hexec : exec c s = .next (receive (h.message 0x03 p) s) := by rcases hc with rfl | rfl | rfl <;> rfl
  refine ⟨?_, fun hbad hconfig => ?_, fun hbad hconfig => ?_⟩
  · intro hgood t hlo hhi hother iron
    obtain ⟨hlen, hbank, hplays⟩ := hgood
    have taken {b : IronBank} (hb : senseBank p = some b) :
        take (h.message 0x03 p) (s.hearing (h.message 0x03 p)) = senseTaken b (intAt2 p 1) (s.hearing (h.message 0x03 p)) := by
      rw [take_sense, sense, hb]
      exact if_pos ((LineMap.matches_iff x 8 h.src).mpr hplays)
    have settled {b : IronBank} (hb : senseBank p = some b) (hpair : comparatorsOf b = [lo, hi]) (hne : lo ≠ hi)
        (hiron : { x.iron with comparators := t }.setBank ⟨.fresh, 0⟩ b = iron) :
        s.completes c (changes t hi (changes t lo { x with iron := iron })) [] := by
      rw [← hiron]
      refine completes_taken_quiet hexec ht rfl (taken hb)
        (senseTaken_s (e := s.hearing (h.message 0x03 p)) hpair hne (Comparator.eq_read_of_moves hlo)
          (Comparator.eq_read_of_moves hhi) hother) ?_ (senseTaken_feeds _ _ _) (Ev.owes_senseTaken (s.hearing_owes _) _ _)
      rw [State.loggingIf_phase, State.loggingIf_phase]
    rcases hbank with h0 | h1
    · have hlo0 : lo = 0 := if_pos h0
      have hhi1 : hi = 1 := if_pos h0
      refine settled (b := .forward) ?_ (by rw [hlo0, hhi1]; rfl) (by rw [hlo0, hhi1]; decide) (if_pos h0).symm
      rw [senseBank, if_pos hlen, if_pos h0]
    · have h0 : byteAt p 0 ≠ 0 := by
        rw [h1]
        decide
      have hlo2 : lo = 2 := if_neg h0
      have hhi3 : hi = 3 := if_neg h0
      refine settled (b := .rear) ?_ (by rw [hlo2, hhi3]; rfl) (by rw [hlo2, hhi3]; decide) (if_neg h0).symm
      rw [senseBank, if_pos hlen, if_neg h0, if_pos h1]
  · have hrejected : take (h.message 0x03 p) (s.hearing (h.message 0x03 p)) = s.hearing (h.message 0x03 p) :=
      (sense_rejected hbad).trans (if_pos hconfig)
    exact completes_taken_unchanged hexec ht rfl hrejected
  · have hrejected : take (h.message 0x03 p) (s.hearing (h.message 0x03 p))
        = logAlert .roleMismatch 8 0 0 (h.src.setWidth 16) (s.hearing (h.message 0x03 p)) :=
      (sense_rejected hbad).trans (if_neg hconfig)
    exact completes_taken_logging hexec ht rfl hrejected

end Sys2Proof.Machine
end

section
/-! SUPPORT. SIGHT: its form check (R38), the sightings turned away (R37 to R42), and those that join a queue (R43 to R46). -/

namespace Sys2Proof.Machine

theorem take_sight (h : Envelope) (p : List Byte) (e : Ev) : take (h.message 0x01 p) e = sight h.src p e := rfl

/-! ### The form check -/

/-- The roles with a payload length are 1, 2 and 3 (Table 3-1). -/
theorem sightLength_iff {r : Nat} (h : ¬ (r = 0 ∨ 3 < r)) (n : Nat) :
    n = sightLength r ↔ (r = 1 ∧ n = 12) ∨ (r = 2 ∧ n = 9) ∨ (r = 3 ∧ n = 7) := by
  have hr : r = 1 ∨ r = 2 ∨ r = 3 := by omega
  rcases hr with rfl | rfl | rfl <;> simp [sightLength]

theorem badSighting_role {p : List Byte} (h : p = [] ∨ natAt1 p 0 = 0 ∨ 3 < natAt1 p 0) : badSighting p = some 1 :=
  if_pos (h.imp_right (Or.imp_left fun h0 => by omega))

/-- The tests behind the role (R38). -/
theorem badSighting_named {p : List Byte} (h : ¬ (p = [] ∨ natAt1 p 0 = 0 ∨ 3 < natAt1 p 0)) :
    badSighting p
      = if ¬ ((natAt1 p 0 = 1 ∧ p.length = 12) ∨ (natAt1 p 0 = 2 ∧ p.length = 9) ∨ (natAt1 p 0 = 3 ∧ p.length = 7)) then
          some 2
        else if serialAt p 1 = 0 then some 3
        else if (natAt1 p 0 = 2 ∨ natAt1 p 0 = 3) ∧ wordAt p 5 = 0 then some 4
        else if natAt1 p 0 = 2 ∧ 15000 < natAt2 p 7 then some 5
        else none := by
  have hrole : ¬ (natAt1 p 0 = 0 ∨ 3 < natAt1 p 0) := fun hr => h (.inr hr)
  have hfirst : ¬ (p = [] ∨ natAt1 p 0 < 1 ∨ 3 < natAt1 p 0) := fun hr =>
    h (hr.imp_right (Or.imp_left fun h0 => by omega))
  have hkeyed : natAt1 p 0 ≠ 1 ↔ natAt1 p 0 = 2 ∨ natAt1 p 0 = 3 := by omega
  rw [badSighting, if_neg hfirst]
  simp only [hkeyed, ← sightLength_iff hrole, ne_eq]

/-! ### Sightings turned away -/

theorem sight_config {src : Node} {p : List Byte} {e : Ev} (h : e.s.rc.state = .config) : sight src p e = e := if_pos h

theorem sight_malformed {src : Node} {p : List Byte} {e : Ev} {n : Nat} (h : e.s.rc.state ≠ .config)
    (hn : badSighting p = some n) :
    sight src p e = logAlert .badSighting (roleField p 1 3) (sightSerial p) 0 (BitVec.ofNat 16 n) e := by
  rw [sight, if_neg h, hn]

theorem sight_foreign {src : Node} {p : List Byte} {e : Ev} (h : e.s.rc.state ≠ .config) (hn : badSighting p = none)
    (hsrc : ¬ e.s.plays src (natAt1 p 0)) :
    sight src p e = logAlert .roleMismatch (byteAt p 0) (serialAt p 1) 0 (src.setWidth 16) e := by
  rw [sight, if_neg h, hn]
  exact if_neg (mt (LineMap.matches_iff _ _ _).mp hsrc)

/-- A SIGHT that passes the form and source checks goes on by its role (R37). -/
theorem sight_checked {src : Node} {p : List Byte} {e : Ev} (h : e.s.rc.state ≠ .config) (hn : badSighting p = none)
    (hsrc : e.s.plays src (natAt1 p 0)) :
    sight src p e
      = if natAt1 p 0 = 1 then sightBlock p e else if natAt1 p 0 = 2 then sightCase p e else sightJacket p e := by
  rw [sight, if_neg h, hn]
  exact if_pos ((LineMap.matches_iff _ _ _).mpr hsrc)

/-! ### Where a serial is held -/

/-- A serial is at the tail of a queue (R40, R41). -/
theorem getLast?_map_eq_some_iff {α : Type} {xs : List α} {f : α → Serial} {serial : Serial} :
    xs.getLast?.map f = some serial ↔ ∃ x, xs.getLast? = some x ∧ f x = serial := Option.map_eq_some_iff

theorem any_serial_iff {α : Type} {xs : List α} {f : α → Serial} {serial : Serial} :
    (xs.any fun x => f x == serial) = true ↔ ∃ x ∈ xs, f x = serial := by
  simp [List.any_eq_true]

/-- A tail is in its queue. -/
theorem exists_mem_of_getLast? {α : Type} {xs : List α} {f : α → Serial} {serial : Serial}
    (h : ∃ x, xs.getLast? = some x ∧ f x = serial) : ∃ x ∈ xs, f x = serial := by
  obtain ⟨x, hx, hs⟩ := h
  exact ⟨x, List.mem_of_getLast? hx, hs⟩

/-- The collection named for a block's serial is the first of BQ, TQ, PT and AQ that holds it (R40, log 23). -/
theorem Queues.holds_eq (q : Queues) (serial : Serial) [Decidable (∃ b ∈ q.bq, b.serial = serial)]
    [Decidable (∃ r ∈ q.tq, r.serial = serial)] [Decidable (∃ r ∈ q.pt.records, r.serial = serial)]
    [Decidable (∃ r ∈ q.aq, r.serial = serial)] :
    q.holds serial = if ∃ b ∈ q.bq, b.serial = serial then some .bq
      else if ∃ r ∈ q.tq, r.serial = serial then some .tq
      else if ∃ r ∈ q.pt.records, r.serial = serial then some .pt
      else if ∃ r ∈ q.aq, r.serial = serial then some .aq
      else none := by
  simp only [Queues.holds, any_serial_iff]

/-! ### Sightings of each role -/

theorem sightBlock_tail {p : List Byte} {e : Ev} (h : ∃ b, e.s.queues.bq.getLast? = some b ∧ b.serial = serialAt p 1) :
    sightBlock p e = e := by
  classical
  rw [sightBlock, Queues.holds_eq, if_pos (exists_mem_of_getLast? h)]
  exact if_pos (getLast?_map_eq_some_iff.mpr h)

theorem sightBlock_held {p : List Byte} {e : Ev} {c : Collection}
    (h : ∀ b, e.s.queues.bq.getLast? = some b → b.serial ≠ serialAt p 1) (hc : e.s.queues.holds (serialAt p 1) = some c) :
    sightBlock p e = serialRepeat 1 (serialAt p 1) (keyAt p 5) c e := by
  rw [sightBlock, hc]
  refine if_neg fun ht => ?_
  obtain ⟨b, hb, hs⟩ := getLast?_map_eq_some_iff.mp ht
  exact h b hb hs

theorem sightBlock_full {p : List Byte} {e : Ev} (hc : e.s.queues.holds (serialAt p 1) = none)
    (hfull : 24 ≤ e.s.queues.bq.length) : sightBlock p e = sightOverflow 1 (serialAt p 1) (keyAt p 5) .bq e := by
  rw [sightBlock, hc]
  exact if_neg (Nat.not_lt.mpr hfull)

theorem sightBlock_room {p : List Byte} {e : Ev} (hc : e.s.queues.holds (serialAt p 1) = none)
    (hroom : e.s.queues.bq.length < 24) :
    sightBlock p e = computeLevels e.s.queues (enqueue { e.s.queues with bq := e.s.queues.bq ++ [blockEntry e.s p] } .block
      (blockAlert (blockEntry e.s p) e)) := by
  rw [sightBlock, hc]
  exact if_pos hroom

theorem sightCase_tail {p : List Byte} {e : Ev} (h : ∃ c, e.s.queues.cq.getLast? = some c ∧ c.serial = serialAt p 1) :
    sightCase p e = e :=
  (if_pos (any_serial_iff.mpr (exists_mem_of_getLast? h))).trans (if_pos (getLast?_map_eq_some_iff.mpr h))

theorem sightCase_held {p : List Byte} {e : Ev}
    (h : ∀ c, e.s.queues.cq.getLast? = some c → c.serial ≠ serialAt p 1)
    (hc : ∃ c ∈ e.s.queues.cq, c.serial = serialAt p 1) :
    sightCase p e = serialRepeat 2 (serialAt p 1) 0 .cq e := by
  refine (if_pos (any_serial_iff.mpr hc)).trans (if_neg fun ht => ?_)
  obtain ⟨c, hlast, hs⟩ := getLast?_map_eq_some_iff.mp ht
  exact h c hlast hs

theorem sightCase_full {p : List Byte} {e : Ev} (hc : ¬ ∃ c ∈ e.s.queues.cq, c.serial = serialAt p 1)
    (hfull : 16 ≤ e.s.queues.cq.length) : sightCase p e = sightOverflow 2 (serialAt p 1) 0 .cq e :=
  (if_neg (mt any_serial_iff.mp hc)).trans (if_neg (Nat.not_lt.mpr hfull))

theorem sightCase_room {p : List Byte} {e : Ev} (hc : ¬ ∃ c ∈ e.s.queues.cq, c.serial = serialAt p 1)
    (hroom : e.s.queues.cq.length < 16) :
    sightCase p e = computeLevels e.s.queues (enqueue
      { e.s.queues with cq := e.s.queues.cq ++ [⟨serialAt p 1, wordAt p 5, natAt2 p 7, Waiting.fresh⟩] } .caseItem e) :=
  (if_neg (mt any_serial_iff.mp hc)).trans (if_pos hroom)

theorem sightJacket_tail {p : List Byte} {e : Ev} (h : ∃ j, e.s.queues.jq.getLast? = some j ∧ j.serial = serialAt p 1) :
    sightJacket p e = e :=
  (if_pos (any_serial_iff.mpr (exists_mem_of_getLast? h))).trans (if_pos (getLast?_map_eq_some_iff.mpr h))

theorem sightJacket_held {p : List Byte} {e : Ev}
    (h : ∀ j, e.s.queues.jq.getLast? = some j → j.serial ≠ serialAt p 1)
    (hj : ∃ j ∈ e.s.queues.jq, j.serial = serialAt p 1) :
    sightJacket p e = serialRepeat 3 (serialAt p 1) 0 .jq e := by
  refine (if_pos (any_serial_iff.mpr hj)).trans (if_neg fun ht => ?_)
  obtain ⟨j, hlast, hs⟩ := getLast?_map_eq_some_iff.mp ht
  exact h j hlast hs

theorem sightJacket_full {p : List Byte} {e : Ev} (hj : ¬ ∃ j ∈ e.s.queues.jq, j.serial = serialAt p 1)
    (hfull : 16 ≤ e.s.queues.jq.length) : sightJacket p e = sightOverflow 3 (serialAt p 1) 0 .jq e :=
  (if_neg (mt any_serial_iff.mp hj)).trans (if_neg (Nat.not_lt.mpr hfull))

theorem sightJacket_room {p : List Byte} {e : Ev} (hj : ¬ ∃ j ∈ e.s.queues.jq, j.serial = serialAt p 1)
    (hroom : e.s.queues.jq.length < 16) :
    sightJacket p e = computeLevels e.s.queues (enqueue
      { e.s.queues with jq := e.s.queues.jq ++ [⟨serialAt p 1, wordAt p 5, Waiting.fresh⟩] } .jacket e) :=
  (if_neg (mt any_serial_iff.mp hj)).trans (if_pos hroom)

/-- An overflow (R42): QUEUE_OVERFLOW and the halt it raises. -/
theorem completes_overflow {c : Instr} {m : Message} {s : State} {role : Byte} {serial : Serial} {key : TitleKey}
    {q : Collection} (hc : exec c s = .next (receive m s)) (ht : s.takes m) (hk : takenWhenBroadcast m = true)
    (hr : take m (s.hearing m) = sightOverflow role serial key q (s.hearing m)) :
    let v := (s.heard m).logging .queueOverflow role serial key (BitVec.ofNat 16 q.code)
    s.completes c (v.caused .overflow) v.causeOrders := by
  intro v
  have howes : (logAlert .queueOverflow role serial key (BitVec.ofNat 16 q.code) (s.hearing m)).owes s.mu.log :=
    Ev.owes_logAlert (s.hearing_owes m) ..
  have hdone := completes_taken hc ht hk hr (raiseCause_s _ _) (State.caused_phase _ _) (Ev.owes_raiseCause howes _)
  have horders : (sightOverflow role serial key q (s.hearing m)).feedMessages = v.causeOrders := by
    rw [sightOverflow, Ev.feedMessages, raiseCause_feeds, raiseCause_s]
    simp only [logAlert_feeds, State.hearing_feeds, List.nil_append, State.caused_feedOrder]
    exact State.causeFeeds_messages v
  rwa [horders] at hdone

/-- Settles O47: the form check, and each sighting that enqueues nothing by the first test it fails. -/
theorem sightingsTurnedAway : Obligations.SightingsTurnedAway := by
  refine ⟨fun p => ?_, fun h p c s ht hc => ?_⟩
  · intro c1 c2 c3 c4 c5
    refine ⟨fun h1 => badSighting_role h1, fun h1 h2 => ?_, fun h1 h2 h3 => ?_, fun h1 h2 h3 h4 => ?_,
      fun h1 h2 h3 h4 h5 => ?_, fun h1 h2 h3 h4 h5 => ?_⟩
    · rw [badSighting_named h1, if_pos h2]
    · rw [badSighting_named h1, if_neg h2, if_pos h3]
    · rw [badSighting_named h1, if_neg h2, if_neg h3, if_pos h4]
    · rw [badSighting_named h1, if_neg h2, if_neg h3, if_neg h4, if_pos h5]
    · rw [badSighting_named h1, if_neg h2, if_neg h3, if_neg h4, if_neg h5]
  · intro x role serial node checked repeated overflows inBq inTq inPt inAq inCq inJq
    have hexec : exec c s = .next (receive (h.message 0x01 p) s) := by rcases hc with rfl | rfl | rfl <;> rfl
    let e := s.hearing (h.message 0x01 p)
    have silent (hr : sight h.src p e = e) : s.completes c x [] := completes_taken_unchanged hexec ht rfl hr
    have byRole (hch : checked) := sight_checked (src := h.src) (e := e) hch.1 hch.2.1 hch.2.2
    have hrole (n : Nat) (hn : role = n) (hlt : n < 256) : byteAt p 0 = BitVec.ofNat 8 n := by
      rw [← hn]
      exact (natByte_of_toNat _).symm
    refine ⟨fun hconfig => silent (sight_config hconfig), fun n hconfig hn => ?_, fun hconfig hn hsrc => ?_,
      fun hch h1 => ⟨fun htail => ?_, fun htail => ?_⟩, fun hch h2 => ⟨fun htail => ?_, fun htail => ?_⟩,
      fun hch h3 => ⟨fun htail => ?_, fun htail => ?_⟩⟩
    · exact completes_taken_logging hexec ht rfl (sight_malformed hconfig hn)
    · exact completes_taken_logging hexec ht rfl (sight_foreign hconfig hn hsrc)
    · exact silent ((byRole hch).trans ((if_pos h1).trans (sightBlock_tail htail)))
    · classical
      have hblock : sight h.src p e = sightBlock p e := (byRole hch).trans (if_pos h1)
      have hbyte : byteAt p 0 = 1 := hrole 1 h1 (by decide)
      have found {q : Collection} (hq : e.s.queues.holds serial = some q) :
          repeated (keyAt p 5) (BitVec.ofNat 16 q.code) := by
        simp only [repeated, hbyte]
        exact completes_taken_logging hexec ht rfl (hblock.trans (sightBlock_held htail hq))
      have hholds := Queues.holds_eq e.s.queues serial
      refine ⟨fun hb => ?_, fun hb htq => ?_, fun hb htq hpt => ?_, fun hb htq hpt haq => ?_,
        fun hb htq hpt haq hfull => ?_⟩
      · exact found (q := .bq) (hholds.trans (if_pos hb))
      · exact found (q := .tq) (hholds.trans ((if_neg hb).trans (if_pos htq)))
      · exact found (q := .pt) (hholds.trans ((if_neg hb).trans ((if_neg htq).trans (if_pos hpt))))
      · exact found (q := .aq)
          (hholds.trans ((if_neg hb).trans ((if_neg htq).trans ((if_neg hpt).trans (if_pos haq)))))
      · have hnone := hholds.trans ((if_neg hb).trans ((if_neg htq).trans ((if_neg hpt).trans (if_neg haq))))
        simp only [overflows, hbyte]
        exact completes_overflow (q := .bq) hexec ht rfl (hblock.trans (sightBlock_full hnone hfull))
    · exact silent ((byRole hch).trans ((if_neg (by omega)).trans ((if_pos h2).trans (sightCase_tail htail))))
    · have hcase : sight h.src p e = sightCase p e := (byRole hch).trans ((if_neg (by omega)).trans (if_pos h2))
      have hbyte : byteAt p 0 = 2 := hrole 2 h2 (by decide)
      simp only [repeated, overflows, hbyte]
      exact ⟨fun hin => completes_taken_logging hexec ht rfl (hcase.trans (sightCase_held htail hin)),
        fun hin hfull => completes_overflow (q := .cq) hexec ht rfl (hcase.trans (sightCase_full hin hfull))⟩
    · exact silent ((byRole hch).trans ((if_neg (by omega)).trans ((if_neg (by omega)).trans (sightJacket_tail htail))))
    · have hjacket : sight h.src p e = sightJacket p e :=
        (byRole hch).trans ((if_neg (by omega)).trans (if_neg (by omega)))
      have hbyte : byteAt p 0 = 3 := hrole 3 h3 (by decide)
      simp only [repeated, overflows, hbyte]
      exact ⟨fun hin => completes_taken_logging hexec ht rfl (hjacket.trans (sightJacket_held htail hin)),
        fun hin hfull => completes_overflow (q := .jq) hexec ht rfl (hjacket.trans (sightJacket_full hin hfull))⟩

/-! ### Sightings that join a queue -/

/-- An event that has changed the occupancy of one feeder's queue computes that feeder's level alone (R50). -/
theorem computeLevels_one {before : Queues} {e : Ev} {f : Feeder} (hf : e.s.queues.fedBy f ≠ before.fedBy f)
    (hother : ∀ g, g ≠ f → e.s.queues.fedBy g = before.fedBy g) :
    (computeLevels before e).s = e.s.levelled f
      ∧ (computeLevels before e).feedMessages = e.feedMessages ++ e.s.levelOrder f := by
  obtain ⟨hs, hfeeds, -⟩ := computeLevels_spec before e
  rw [hs, hfeeds]
  cases f
  · have hc := hother .caseFeeder (by decide)
    have hj := hother .jacket (by decide)
    simp only [State.relevelled, State.relevelOrders, State.levelledFrom, State.orderFrom, if_neg hf,
      State.levelled_queues, if_pos hc, if_pos hj, List.append_nil]
    trivial
  · have hb := hother .block (by decide)
    have hj := hother .jacket (by decide)
    simp only [State.relevelled, State.relevelOrders, State.levelledFrom, State.orderFrom, if_neg hf,
      State.levelled_queues, if_pos hb, if_pos hj, List.append_nil, List.nil_append]
    trivial
  · have hb := hother .block (by decide)
    have hc := hother .caseFeeder (by decide)
    simp only [State.relevelled, State.relevelOrders, State.levelledFrom, State.orderFrom, if_neg hf, if_pos hb,
      if_pos hc, List.nil_append]
    trivial

/-- A sighting that joins the queue of feeder `f`: the state, and the FEED order of its level (R44, R45, R46, R50). -/
theorem completes_enqueued {c : Instr} {m : Message} {s u : State} {f : Feeder} {e : Ev}
    (hc : exec c s = .next (receive m s)) (ht : s.takes m) (hk : takenWhenBroadcast m = true)
    (hr : take m (s.hearing m) = computeLevels (s.heard m).queues e) (hu : e.s = u) (hp : u.phase = (s.heard m).phase)
    (hfeeds : e.feeds = []) (howes : e.owes s.mu.log) (hf : u.queues.fedBy f ≠ (s.heard m).queues.fedBy f)
    (hother : ∀ g, g ≠ f → u.queues.fedBy g = (s.heard m).queues.fedBy g) :
    s.completes c (u.levelled f) (u.levelOrder f) := by
  subst hu
  obtain ⟨hs, hm⟩ := computeLevels_one hf hother
  have hdone := completes_taken hc ht hk hr hs hp (Ev.owes_computeLevels howes _)
  rwa [hm, Ev.feedMessages, hfeeds] at hdone

/-- A block sighting of right form and source, its serial held nowhere and BQ not full. -/
theorem sight_block_joins {h : Envelope} {p : List Byte} {x : State} {e : Ev} (he : e.s = x) (hrun : x.rc.state ≠ .config)
    (hlen : p.length = 12) (hrole : byteAt p 0 = 1) (hserial : serialAt p 1 ≠ 0) (hsrc : x.plays h.src 1)
    (hbq : ∀ b ∈ x.queues.bq, b.serial ≠ serialAt p 1)
    (hbooks : ∀ r ∈ x.queues.tq ++ x.queues.pt.records ++ x.queues.aq, r.serial ≠ serialAt p 1)
    (hroom : x.queues.bq.length < 24) :
    sight h.src p e = computeLevels x.queues (enqueue { x.queues with bq := x.queues.bq ++ [blockEntry x p] } .block
      (blockAlert (blockEntry x p) e)) := by
  classical
  subst he
  have h1 : natAt1 p 0 = 1 := congrArg BitVec.toNat hrole
  have hnamed : ¬ (p = [] ∨ natAt1 p 0 = 0 ∨ 3 < natAt1 p 0) := by
    rintro (rfl | hr)
    · cases hlen
    · omega
  have hgood : badSighting p = none := by
    rw [badSighting_named hnamed, if_neg (by simp [h1, hlen]), if_neg hserial, if_neg (by simp [h1]), if_neg (by simp [h1])]
  have hnone : e.s.queues.holds (serialAt p 1) = none := by
    simp only [List.mem_append] at hbooks
    rw [Queues.holds_eq, if_neg, if_neg, if_neg, if_neg]
    · exact fun ⟨r, hr, hs⟩ => hbooks r (.inr hr) hs
    · exact fun ⟨r, hr, hs⟩ => hbooks r (.inl (.inr hr)) hs
    · exact fun ⟨r, hr, hs⟩ => hbooks r (.inl (.inl hr)) hs
    · exact fun ⟨b, hb, hs⟩ => hbq b hb hs
  rw [sight_checked hrun hgood (by rwa [h1]), if_pos h1, sightBlock_room hnone hroom]

theorem blockEntry_none {s : State} {p : List Byte} (h : s.titles.lookup (keyAt p 5) = none) :
    blockEntry s p = ⟨serialAt p 1, keyAt p 5, none, 0, false, false, ⟨0, 0, false⟩, 0⟩ := by
  rw [blockEntry, h]
  rfl

theorem blockEntry_found {s : State} {p : List Byte} {f : Found} (h : s.titles.lookup (keyAt p 5) = some f) :
    blockEntry s p = ⟨serialAt p 1, keyAt p 5, some f, (correct s.ccu.record (natAt2 p 8) (natAt2 p 10)).thickness,
      !((correct s.ccu.record (natAt2 p 8) (natAt2 p 10)).inTolerance f.data),
      (correct s.ccu.record (natAt2 p 8) (natAt2 p 10)).clamped, ⟨0, 0, false⟩, 0⟩ := by
  rw [blockEntry, h]
  rfl

/-- The alert of a block's flags: the first flag set, in the order unknown title, clamped, off caliper (R43). -/
theorem blockAlert_s (b : BlockEntry) (e : Ev) :
    (blockAlert b e).s = if b.title = none then e.s.logging .unknownTitle 1 b.serial b.key 0
      else if b.clamped = true then e.s.logging .caliperClamped 1 b.serial b.key (BitVec.ofNat 16 b.thickness)
      else if b.offCaliper = true then e.s.logging .offCaliper 1 b.serial b.key (BitVec.ofNat 16 b.thickness)
      else e.s := by
  rw [blockAlert, apply_ite Ev.s, apply_ite Ev.s, apply_ite Ev.s]
  simp only [Option.isNone_iff_eq_none]
  rfl

theorem blockAlert_feeds (b : BlockEntry) (e : Ev) : (blockAlert b e).feeds = e.feeds := by
  simp only [blockAlert, apply_ite Ev.feeds, logAlert_feeds, ite_self]

theorem Ev.owes_blockAlert {before : List Alert} {e : Ev} (h : e.owes before) (b : BlockEntry) :
    (blockAlert b e).owes before := by
  unfold blockAlert
  split
  · exact Ev.owes_logAlert h ..
  · split
    · exact Ev.owes_logAlert h ..
    · split
      · exact Ev.owes_logAlert h ..
      · exact h

/-- Settles O44: the entry by the outcome of the lookup; its record is logged before it joins. -/
theorem blockSightingEnqueued : Obligations.BlockSightingEnqueued := by
  intro h p s ht x serial key hrun hlen hrole hserial hsrc hbq hbooks hroom joins
  have hjoin := sight_block_joins (e := s.hearing (h.message 0x01 p)) (x := x) rfl hrun hlen hrole hserial hsrc hbq hbooks
    hroom
  have joined {b : BlockEntry} {v : State} (hb : blockEntry x p = b)
      (hv : (enqueue { x.queues with bq := x.queues.bq ++ [b] } .block (blockAlert b (s.hearing (h.message 0x01 p)))).s = v)
      (hp : v.phase = x.phase) (hq : v.queues = { x.queues with bq := x.queues.bq ++ [b] }) :
      s.completes (.blockSight h p) (v.levelled .block) (v.levelOrder .block) := by
    rw [hb] at hjoin
    refine completes_enqueued rfl ht rfl hjoin hv hp (blockAlert_feeds _ _)
      (Ev.owes_of_eq (Ev.owes_blockAlert (s.hearing_owes _) b) rfl rfl) ?_ fun g hg => ?_
    · rw [hq]
      change (x.queues.bq ++ [b]).length ≠ x.queues.bq.length
      simp
    · rw [hq]
      cases g
      · exact absurd rfl hg
      · rfl
      · rfl
  refine ⟨fun hnone => ?_, fun f hf => ?_⟩
  · refine joined (blockEntry_none hnone) ?_ rfl rfl
    rw [enqueue, blockAlert_s]
    rfl
  · intro r v u
    refine joined (blockEntry_found hf) ?_ ?_ ?_
    · rw [enqueue, blockAlert_s, if_neg (by simp)]
      simp only [u]
      by_cases hclamped : r.clamped = true
      · rw [if_pos hclamped, if_pos hclamped]
        rfl
      · rw [if_neg hclamped, if_neg hclamped]
        by_cases htol : r.inTolerance f.data = true
        · rw [if_pos htol, if_neg (by simpa using htol)]
          rfl
        · rw [if_neg htol, if_pos (by simpa using htol)]
          rfl
    · simp only [u]
      split
      · rfl
      · split <;> rfl
    · simp only [u]
      split
      · rfl
      · split <;> rfl

/-- Settles O45: both queues take the entry at their tail. -/
theorem caseAndJacketSightingsEnqueued : Obligations.CaseAndJacketSightingsEnqueued := by
  intro h p s ht x serial hrun hserial hword
  have howes (u : State) (hm : u.mu = x.mu) : ({ s.hearing (h.message 0x01 p) with s := u } : Ev).owes s.mu.log :=
    Ev.owes_of_eq (s.hearing_owes _) hm rfl
  have named {n : Nat} (hn : natAt1 p 0 = n) (hlo : 1 ≤ n) (hhi : n ≤ 3) (hlen : 0 < p.length) :
      ¬ (p = [] ∨ natAt1 p 0 = 0 ∨ 3 < natAt1 p 0) := by
    rintro (rfl | hr)
    · exact absurd hlen (by decide)
    · omega
  refine ⟨fun hlen hrole hspine hsrc hfree hroom => ?_, fun hlen hrole hsrc hfree hroom => ?_⟩
  · intro u
    have h2 : natAt1 p 0 = 2 := congrArg BitVec.toNat hrole
    have hgood : badSighting p = none := by
      rw [badSighting_named (named h2 (by decide) (by decide) (by omega)), if_neg (by simp [h2, hlen]), if_neg hserial,
        if_neg fun hw => hword hw.2, if_neg fun hs => Nat.not_lt.mpr hspine hs.2]
    have hjoin := sight_checked (src := h.src) (e := s.hearing (h.message 0x01 p)) hrun hgood (by rwa [h2])
    rw [if_neg (by omega), if_pos h2, sightCase_room (by rintro ⟨c, hc, hs⟩; exact hfree c hc hs) hroom] at hjoin
    refine completes_enqueued (u := u) rfl ht rfl hjoin rfl rfl rfl (howes u rfl) ?_ fun g hg => ?_
    · change (x.queues.cq ++ [_]).length ≠ x.queues.cq.length
      simp
    · cases g
      · rfl
      · exact absurd rfl hg
      · rfl
  · intro u
    have h3 : natAt1 p 0 = 3 := congrArg BitVec.toNat hrole
    have hgood : badSighting p = none := by
      rw [badSighting_named (named h3 (by decide) (by decide) (by omega)), if_neg (by simp [h3, hlen]), if_neg hserial,
        if_neg fun hw => hword hw.2, if_neg (by simp [h3])]
    have hjoin := sight_checked (src := h.src) (e := s.hearing (h.message 0x01 p)) hrun hgood (by rwa [h3])
    rw [if_neg (by omega), if_neg (by omega), sightJacket_room (by rintro ⟨j, hj, hs⟩; exact hfree j hj hs) hroom] at hjoin
    refine completes_enqueued (u := u) rfl ht rfl hjoin rfl rfl rfl (howes u rfl) ?_ fun g hg => ?_
    · change (x.queues.jq ++ [_]).length ≠ x.queues.jq.length
      simp
    · cases g
      · rfl
      · rfl
      · exact absurd rfl hg

end Sys2Proof.Machine
end

section
/-! SUPPORT. Logging an alert (R165, R166), and the log of a malformed SIGHT (R38, R60). -/

namespace Sys2Proof.Machine

/-! ### A record and the log it joins -/

theorem Management.logged_first {mu : Management} (a : Alert) (h : mu.log = []) :
    mu.logged a = { mu with log := [a], attn := .high } := by
  have hroom : mu.log.length < Config.logCapacity := by
    rw [h]
    decide
  rw [Management.logged, if_pos hroom, if_pos h, h, List.nil_append]

theorem Management.logged_behind {mu : Management} (a : Alert) (h : mu.log ≠ []) (hroom : mu.log.length < 32) :
    mu.logged a = { mu with log := mu.log ++ [a] } := by
  have hfit : mu.log.length < Config.logCapacity := hroom
  rw [Management.logged, if_pos hfit, if_neg h]

theorem Management.logged_full {mu : Management} (a : Alert) (h : 32 ≤ mu.log.length) :
    mu.logged a = { mu with overrun := true } := if_neg (Nat.not_lt.mpr h)

theorem State.alertFor_of_held {s : State} (t : State) (h : s.mu.log ≠ []) : s.alertFor t = [] := if_neg fun hc => h hc.1

/-- At most one ALERT comes of an event. -/
theorem State.alertFor_length (s t : State) : (s.alertFor t).length ≤ 1 := by
  unfold State.alertFor
  split <;> simp

/-! ### What a taken message finds of the log -/

/-- Where the link is not ACQUIRING, no record precedes those of the message itself (R148). -/
theorem State.arrived_mu_of_steady {s : State} (h : s.ring.link ≠ .acquiring) : s.arrived.mu = s.mu := by
  rw [State.arrived, if_neg h]

@[simp] theorem RingPort.passingOn_outbound (m : Message) (r : RingPort) : (r.passingOn m).outbound = r.outbound := by
  unfold RingPort.passingOn
  split <;> rfl

@[simp] theorem State.heard_mu (s : State) (m : Message) : (s.heard m).mu = s.arrived.mu := by
  unfold State.heard
  split <;> rfl

@[simp] theorem State.heard_cycles (s : State) (m : Message) : (s.heard m).cycles = s.cycles := by
  unfold State.heard
  split <;> exact s.arrived_cycles

@[simp] theorem State.heard_rc (s : State) (m : Message) : (s.heard m).rc = s.rc := by
  unfold State.heard
  split <;> exact s.arrived_rc

@[simp] theorem State.heard_outbound (s : State) (m : Message) : (s.heard m).ring.outbound = s.ring.outbound := by
  unfold State.heard
  split
  · exact s.arrived_outbound
  · exact (RingPort.passingOn_outbound m _).trans s.arrived_outbound

/-- With room for the one ALERT, an event with no other message keeps the log its effects left. -/
theorem State.completes.mu_of_room {s u : State} {c : Instr} (h : s.completes c u []) (hroom : u.ring.outbound.length < 32) :
    ∃ t, exec c s = .next t ∧ t.mu = u.mu := by
  obtain ⟨t, hexec, -, hsent⟩ := h
  have halert := s.alertFor_length u
  refine ⟨t, hexec, ?_⟩
  rw [hsent (by simpa using (by omega : u.ring.outbound.length + (s.alertFor u).length ≤ 32))]
  rfl

/-- Settles O8, by the three outcomes of a record at the log: first, behind others, or discarded. -/
theorem alertsJoinTheLog : Obligations.AlertsJoinTheLog := by
  unfold Obligations.AlertsJoinTheLog
  refine ⟨?_, ?_⟩
  · intro code stage serial key detail e s record u
    refine ⟨rfl, fun hfirst => ⟨?_, if_pos ⟨hfirst, s.mu.logged_log_ne_nil record⟩, if_pos hfirst⟩,
      fun hheld hroom => ?_, fun hfull => ?_, fun hheld => ⟨State.alertFor_of_held u hheld, if_neg hheld⟩⟩
    · exact congrArg (fun mu => { s with mu := mu }) (Management.logged_first record hfirst)
    · exact congrArg (fun mu => { s with mu := mu }) (Management.logged_behind record hheld hroom)
    · exact congrArg (fun mu => { s with mu := mu }) (Management.logged_full record hfull)
  · intro h s ht hrun hlink hroom record
    have hheard : (s.hearing (h.message 0x01 [])).s.rc.state ≠ .config := by
      rwa [State.hearing_s, State.heard_rc]
    have hdone : s.completes (.blockSight h []) ((s.heard (h.message 0x01 [])).logging .badSighting 0 0 0 1) [] :=
      completes_taken_logging rfl ht rfl ((take_sight h [] _).trans (sight_malformed hheard (badSighting_role (.inl rfl))))
    obtain ⟨t, hexec, hmu⟩ := hdone.mu_of_room (by simpa using hroom)
    have hlog : t.mu = s.mu.logged record := by
      rw [hmu, State.logging_mu, State.heard_mu, State.heard_cycles, State.arrived_mu_of_steady hlink]
    refine ⟨t, hexec, fun hfirst => ?_, fun hheld hroom => ?_, fun hfull => ?_⟩
    · rw [hlog, Management.logged_first record hfirst]
    · rw [hlog, Management.logged_behind record hheld hroom]
    · rw [hlog, Management.logged_full record hfull]

end Sys2Proof.Machine
end

section
/-! SUPPORT. What an event holds beside its counts and its messages: the settings, the banks, the carries and the
collections; and the operations that leave all of it alone. -/

namespace Sys2Proof.Machine

/-! ### The holdings of a state -/

/-- The settings, banks, carries and collections of a state, with the phase and the waiting commands: what no message
that is handed over, no alert and no change of run state touches. -/
structure Holdings where
  pending : List Instr
  phase : Phase
  limits : Limits
  ccu : CaliperUnit
  lineMap : LineMap
  profiles : Table Profile 64
  ownNode : Node
  titles : TitleTable
  dose : DoseUnit
  comparators : Table Comparator 4
  queues : Queues

def State.holdings (s : State) : Holdings :=
  ⟨s.pending, s.phase, s.limits, s.ccu, s.lineMap, s.profiles, s.ring.ownNode, s.titles, s.dose, s.iron.comparators,
    s.queues⟩

/-! ### Operations that leave the holdings alone -/

theorem State.sameButSending_holdings {s t : State} (h : s.sameButSending t) : t.holdings = s.holdings := by
  unfold State.sameButSending at h
  rw [h]
  rfl

@[simp] theorem logAlert_holdings (code : AlertCode) (stage : Byte) (serial : Serial) (key : TitleKey) (detail : Word)
    (e : Ev) : (logAlert code stage serial key detail e).s.holdings = e.s.holdings := rfl

@[simp] theorem formPauses_holdings (e : Ev) : (formPauses e).s.holdings = e.s.holdings := rfl

@[simp] theorem formComputed_holdings (e : Ev) : (formComputed e).s.holdings = e.s.holdings := rfl

@[simp] theorem enterRun_holdings (e : Ev) : (enterRun e).s.holdings = e.s.holdings := rfl

@[simp] theorem enterDrain_holdings (e : Ev) : (enterDrain e).s.holdings = e.s.holdings := rfl

@[simp] theorem advanceStamp_holdings (e : Ev) : (advanceStamp e).s.holdings = e.s.holdings := rfl

theorem setRing_holdings {r : RingPort} {e : Ev} (h : r.ownNode = e.s.ring.ownNode) :
    (setRing r e).s.holdings = e.s.holdings :=
  congrArg (fun n => { e.s.holdings with ownNode := n }) h

theorem raiseCause_holdings (c : Cause) (e : Ev) : (raiseCause c e).s.holdings = e.s.holdings :=
  State.sameButSending_holdings (raiseCause_same c e)

@[simp] theorem hand_holdings (m : Message) (e : Ev) : (hand m e).s.holdings = e.s.holdings :=
  State.sameButSending_holdings (hand_same m e)

@[simp] theorem handAll_holdings (ms : List Message) (e : Ev) : (handAll ms e).s.holdings = e.s.holdings :=
  State.sameButSending_holdings (handAll_same ms e)

@[simp] theorem handTallies_holdings (ys : List Tally) (e : Ev) : (handTallies ys e).s.holdings = e.s.holdings :=
  handAll_holdings _ e

@[simp] theorem answer_holdings (tag : Byte) (st : Status) (r : Reason) (e : Ev) :
    (answer tag st r e).s.holdings = e.s.holdings := hand_holdings _ e

@[simp] theorem respond_holdings (tag : Byte) (st : Status) (p : List Byte) (e : Ev) :
    (respond tag st p e).s.holdings = e.s.holdings := hand_holdings _ e

@[simp] theorem computeLevels_holdings (q : Queues) (e : Ev) : (computeLevels q e).s.holdings = e.s.holdings :=
  State.sameButSending_holdings (computeLevels_same q e)

@[simp] theorem finish_holdings (e : Ev) : (finish e).holdings = e.s.holdings :=
  State.sameButSending_holdings (finish_same e)

/-! ### Steps of an event that leave the holdings alone -/

@[simp] theorem continuity_holdings (m : Merge) (n : Word) (e : Ev) : (continuity m n e).s.holdings = e.s.holdings := by
  rw [continuity]
  split
  · rfl
  · rw [raiseCause_holdings]
    rfl

@[simp] theorem presenceAlert_holdings {α : Type} (m : Merge) (c : Collection) (serial : α → Serial) (key : α → TitleKey)
    (p : Presence α) (e : Ev) : (presenceAlert m c serial key p e).s.holdings = e.s.holdings := by
  cases p <;> rfl

@[simp] theorem starveAlert_holdings (m : Merge) (c : Collection) (limit : Nat) (serial : Serial) (key : TitleKey)
    (w : Waiting) (e : Ev) : (starveAlert m c limit serial key w e).s.holdings = e.s.holdings := by
  unfold starveAlert
  split <;> rfl

@[simp] theorem doseAlert_holdings (b : Bool) (i : Fin 64) (x : BlockEntry) (e : Ev) :
    (doseAlert b i x e).s.holdings = e.s.holdings := by
  cases b <;> rfl

@[simp] theorem blockAlert_holdings (b : BlockEntry) (e : Ev) : (blockAlert b e).s.holdings = e.s.holdings := by
  unfold blockAlert
  split_ifs <;> rfl

@[simp] theorem advanceStale_holdings (e : Ev) : (advanceStale e).s.holdings = e.s.holdings := by
  have bank (b : IronBank) (e : Ev) : (advanceBank b e).s.holdings = e.s.holdings := by
    unfold advanceBank
    dsimp only
    split <;> cases b <;> rfl
  rw [advanceStale, bank, bank]

theorem sightOverflow_holdings (role : Byte) (serial : Serial) (key : TitleKey) (c : Collection) (e : Ev) :
    (sightOverflow role serial key c e).s.holdings = e.s.holdings := raiseCause_holdings ..

/-! ### Whole events that leave the holdings alone -/

theorem proofReturned_holdings (m : Message) (e : Ev) : (proofReturned m e).s.holdings = e.s.holdings := by
  unfold proofReturned
  split
  · rfl
  · dsimp only
    split_ifs <;> rfl

theorem proofExpired_holdings (e : Ev) : (proofExpired e).s.holdings = e.s.holdings := by
  unfold proofExpired
  split
  · rfl
  · split <;> rfl

theorem storeDone_holdings (e : Ev) : (storeDone e).s.holdings = e.s.holdings := by
  unfold storeDone
  split <;> rfl

theorem transmitted_holdings (e : Ev) : (transmitted e).s.holdings = e.s.holdings := by
  unfold transmitted
  split
  · rfl
  · rfl
  · split <;> rfl

theorem leaveUp_holdings (l : LinkState) (e : Ev) : (leaveUp l e).s.holdings = e.s.holdings := by
  rw [leaveUp, raiseCause_holdings, logAlert_holdings]
  exact setRing_holdings rfl

theorem found_holdings (e : Ev) : (setRing e.s.ring.found e).s.holdings = e.s.holdings := by
  refine setRing_holdings ?_
  unfold RingPort.found
  split <;> rfl

theorem carrierGone_holdings (e : Ev) : (carrierGone e).s.holdings = e.s.holdings := by
  unfold carrierGone
  split
  · rfl
  · rfl
  · exact leaveUp_holdings _ e

theorem badReceived_holdings (e : Ev) : (badReceived e).s.holdings = e.s.holdings := by
  unfold badReceived
  dsimp only
  split
  · exact leaveUp_holdings _ _
  · rfl

theorem comeUp_holdings (e : Ev) : (comeUp e).s.holdings = e.s.holdings := by
  unfold comeUp
  split <;> rfl

theorem State.arrival_holdings (s : State) : s.arrival.s.holdings = s.holdings := by
  rw [← State.arrival_eq, comeUp_holdings]
  rfl

theorem forward_holdings (m : Message) (e : Ev) : (forward m e).s.holdings = e.s.holdings := by
  unfold forward
  split <;> rfl

theorem stripped_holdings (m : Message) (e : Ev) : (stripped m e).s.holdings = e.s.holdings := by
  have order : (raiseCause .noTaker (logAlert .noTaker 0 0 0 (kindDst m) e)).s.holdings = e.s.holdings :=
    raiseCause_holdings ..
  rw [stripped]
  cases Kind.ofCode m.kind with
  | none => rfl
  | some k =>
    cases k with
    | feed | casein | press | jacket => exact order
    | proof => exact proofReturned_holdings m e
    | _ => rfl

theorem read_holdings (tag : Byte) (p : List Byte) (e : Ev) : (read tag p e).s.holdings = e.s.holdings := by
  unfold read
  split
  · exact respond_holdings tag _ p e
  · split
    · exact respond_holdings tag _ p e
    · rw [hand_holdings]
      unfold afterRead
      split <;> rfl

/-! ### Requests that leave the holdings alone -/

theorem ctrlHalt_holdings (tag : Byte) (e : Ev) : (ctrlHalt tag e).s.holdings = e.s.holdings := by
  unfold ctrlHalt
  split
  · rw [answer_holdings, raiseCause_holdings]
  · exact answer_holdings ..

theorem ctrlResume_holdings (tag : Byte) (e : Ev) : (ctrlResume tag e).s.holdings = e.s.holdings := by
  unfold ctrlResume
  split
  · exact answer_holdings ..
  · split
    · exact answer_holdings ..
    · rw [answer_holdings, formComputed_holdings, enterRun_holdings]

theorem ctrlClear_holdings (tag : Byte) (e : Ev) : (ctrlClear tag e).s.holdings = e.s.holdings := by
  rw [ctrlClear, answer_holdings]
  rfl

theorem ctrlStore_holdings (tag : Byte) (e : Ev) : (ctrlStore tag e).s.holdings = e.s.holdings := by
  unfold ctrlStore
  split_ifs <;> exact answer_holdings ..

theorem ctrlProof_holdings (tag : Byte) (e : Ev) : (ctrlProof tag e).s.holdings = e.s.holdings := by
  unfold ctrlProof
  split_ifs
  · exact answer_holdings ..
  · exact answer_holdings ..
  · exact answer_holdings ..
  · rw [handAll_holdings, answer_holdings]
    rfl

end Sys2Proof.Machine
end

section
/-! SUPPORT. The settings among the holdings: what the operations of an event leave of them. Sightings, cycles and the
requests of Run Control move items and counts only. -/

namespace Sys2Proof.Machine

/-! ### The settings -/

/-- What a run finds settled: the settings, the comparators' configurations, the protect level and the active bank, with
the phase and the waiting commands. -/
structure Settled where
  pending : List Instr
  phase : Phase
  limits : Limits
  ccu : CaliperUnit
  lineMap : LineMap
  profiles : Table Profile 64
  ownNode : Node
  recipes : Table Recipe 32
  configs : Table ComparatorConfig 4
  protect : Fin 4
  activeBank : Bank

def Holdings.settled (h : Holdings) : Settled :=
  ⟨h.pending, h.phase, h.limits, h.ccu, h.lineMap, h.profiles, h.ownNode, h.dose.recipes,
    h.comparators.map Comparator.config, h.titles.protect, h.titles.activeBank⟩

def State.settled (s : State) : Settled := s.holdings.settled

theorem State.settled_of_holdings {s t : State} (h : s.holdings = t.holdings) : s.settled = t.settled :=
  congrArg Holdings.settled h

/-- What the Title Table holds settled: the protect level and the active bank. -/
theorem State.settled_of_titles {s t : State} {x : TitleTable} (h : s.holdings = { t.holdings with titles := x })
    (hp : x.protect = t.titles.protect) (ha : x.activeBank = t.titles.activeBank) : s.settled = t.settled := by
  rw [State.settled, h]
  exact congrArg₂ (fun p b => { t.settled with protect := p, activeBank := b }) hp ha

/-! ### Operations that leave the holdings alone leave the settings alone -/

theorem raiseCause_settled (c : Cause) (e : Ev) :
    (raiseCause c e).s.settled = e.s.settled := State.settled_of_holdings (raiseCause_holdings ..)

theorem handTallies_settled (ys : List Tally) (e : Ev) :
    (handTallies ys e).s.settled = e.s.settled := State.settled_of_holdings (handTallies_holdings ..)

theorem hand_settled (m : Message) (e : Ev) :
    (hand m e).s.settled = e.s.settled := State.settled_of_holdings (hand_holdings ..)

theorem answer_settled (tag : Byte) (st : Status) (r : Reason) (e : Ev) :
    (answer tag st r e).s.settled = e.s.settled := State.settled_of_holdings (answer_holdings ..)

theorem respond_settled (tag : Byte) (st : Status) (p : List Byte) (e : Ev) :
    (respond tag st p e).s.settled = e.s.settled := State.settled_of_holdings (respond_holdings ..)

theorem computeLevels_settled (q : Queues) (e : Ev) :
    (computeLevels q e).s.settled = e.s.settled := State.settled_of_holdings (computeLevels_holdings ..)

theorem continuity_settled (m : Merge) (n : Word) (e : Ev) :
    (continuity m n e).s.settled = e.s.settled := State.settled_of_holdings (continuity_holdings ..)

theorem starveAlert_settled (m : Merge) (c : Collection) (limit : Nat) (serial : Serial) (key : TitleKey) (w : Waiting) (e : Ev) :
    (starveAlert m c limit serial key w e).s.settled = e.s.settled := State.settled_of_holdings (starveAlert_holdings ..)

theorem doseAlert_settled (b : Bool) (i : Fin 64) (x : BlockEntry) (e : Ev) :
    (doseAlert b i x e).s.settled = e.s.settled := State.settled_of_holdings (doseAlert_holdings ..)

theorem blockAlert_settled (b : BlockEntry) (e : Ev) :
    (blockAlert b e).s.settled = e.s.settled := State.settled_of_holdings (blockAlert_holdings ..)

theorem advanceStale_settled (e : Ev) :
    (advanceStale e).s.settled = e.s.settled := State.settled_of_holdings (advanceStale_holdings ..)

theorem presenceAlert_settled {α : Type} (m : Merge) (c : Collection) (serial : α → Serial) (key : α → TitleKey)
    (p : Presence α) (e : Ev) : (presenceAlert m c serial key p e).s.settled = e.s.settled :=
  State.settled_of_holdings (presenceAlert_holdings ..)

/-! ### Collections that change -/

theorem purgeAll_settled (cs : List Collection) (e : Ev) : (purgeAll cs e).2.s.settled = e.s.settled := by
  induction cs generalizing e with
  | nil => rfl
  | cons c cs ih => exact ih _

theorem completeDrain_settled (e : Ev) : (completeDrain e).s.settled = e.s.settled :=
  (handTallies_settled _ _).trans (purgeAll_settled [.cq, .jq] e)

theorem checkDrain_settled (e : Ev) : (checkDrain e).s.settled = e.s.settled := by
  unfold checkDrain
  split
  · exact completeDrain_settled e
  · rfl

theorem endCycle_settled (before : Queues) (removed : Bool) (order : Message) (ys : List Tally) (e : Ev) :
    (endCycle before removed order ys e).s.settled = e.s.settled := by
  have handed : (handTallies ys (hand order (countTallies ys e))).s.settled = e.s.settled :=
    (handTallies_settled ..).trans (hand_settled ..)
  refine (computeLevels_settled ..).trans ?_
  split
  · exact (checkDrain_settled _).trans handed
  · exact handed

/-! ### Sightings -/

theorem sightBlock_settled (p : List Byte) (e : Ev) : (sightBlock p e).s.settled = e.s.settled := by
  rw [sightBlock]
  split
  · split <;> rfl
  · split
    · exact (computeLevels_settled ..).trans (blockAlert_settled _ e)
    · exact raiseCause_settled ..

theorem sightCase_settled (p : List Byte) (e : Ev) : (sightCase p e).s.settled = e.s.settled := by
  rw [sightCase]
  split
  · split <;> rfl
  · split
    · exact computeLevels_settled ..
    · exact raiseCause_settled ..

theorem sightJacket_settled (p : List Byte) (e : Ev) : (sightJacket p e).s.settled = e.s.settled := by
  rw [sightJacket]
  split
  · split <;> rfl
  · split
    · exact computeLevels_settled ..
    · exact raiseCause_settled ..

theorem sight_settled (src : Node) (p : List Byte) (e : Ev) : (sight src p e).s.settled = e.s.settled := by
  rw [sight]
  split
  · rfl
  · split
    · rfl
    · split
      · split_ifs
        · exact sightBlock_settled p e
        · exact sightCase_settled p e
        · exact sightJacket_settled p e
      · rfl

/-! ### Readings -/

theorem Comparator.read_config (c : Comparator) (v : Int) : (c.read v).config = c.config := by
  unfold Comparator.read
  split_ifs <;> rfl

theorem map_config_set (t : Table Comparator 4) (i : Fin 4) {c : Comparator} (h : c.config = (t.get i).config) :
    (t.set i c).map Comparator.config = t.map Comparator.config := by
  refine Table.ext_get fun j => ?_
  rw [Table.get_map, Table.get_map, Table.get_set]
  split
  · next hj => rw [h, hj]
  · rfl

theorem senseComparator_settled (i : Fin 4) (v : Int) (e : Ev) : (senseComparator i v e).s.settled = e.s.settled := by
  have configs := map_config_set e.s.iron.comparators i (Comparator.read_config _ v)
  unfold senseComparator
  dsimp only
  split <;> exact congrArg (fun t => { e.s.settled with configs := t }) configs

theorem sense_settled (src : Node) (p : List Byte) (e : Ev) : (sense src p e).s.settled = e.s.settled := by
  have all (is : List (Fin 4)) (v : Int) (e : Ev) : (senseComparators is v e).s.settled = e.s.settled := by
    induction is generalizing e with
    | nil => rfl
    | cons i is ih => rw [senseComparators, ih, senseComparator_settled]
  have rejected : (senseRejected src e).s.settled = e.s.settled := by
    unfold senseRejected
    split <;> rfl
  unfold sense
  split
  · exact rejected
  case h_2 b _ =>
    split
    · cases b <;> exact all _ _ e
    · exact rejected

/-! ### The cycles -/

theorem joinTransfer_settled (r : BookRecord) (e : Ev) : (joinTransfer r e).2.s.settled = e.s.settled := by
  unfold joinTransfer
  split
  · rfl
  · exact raiseCause_settled ..

theorem casingMatch_settled (b : BlockEntry) (c : CaseEntry) (d : TitleData) (e : Ev) :
    (casingMatch b c d e).2.s.settled = e.s.settled :=
  (joinTransfer_settled _ _).trans ((doseAlert_settled ..).trans (doseAlert_settled ..))

theorem casingApply_settled (l : Limits) (d : CasingCase) (e : Ev) : (casingApply l d e).2.s.settled = e.s.settled := by
  cases d with
  | matched b c t => exact casingMatch_settled b c t e
  | blockWaits b => exact starveAlert_settled ..
  | caseWaits c => exact starveAlert_settled ..
  | _ => rfl

theorem reconcileBq_settled (flag : Bool) (e : Ev) : (reconcileBq flag e).2.s.settled = e.s.settled :=
  presenceAlert_settled ..

theorem reconcileCq_settled (flag : Bool) (e : Ev) : (reconcileCq flag e).2.s.settled = e.s.settled :=
  presenceAlert_settled ..

theorem reconcileTq_settled (flag : Bool) (e : Ev) : (reconcileTq flag e).2.s.settled = e.s.settled :=
  presenceAlert_settled ..

theorem reconcileAq_settled (flag : Bool) (e : Ev) : (reconcileAq flag e).2.s.settled = e.s.settled :=
  presenceAlert_settled ..

theorem reconcileJq_settled (flag : Bool) (e : Ev) : (reconcileJq flag e).2.s.settled = e.s.settled :=
  presenceAlert_settled ..

theorem casingCycle_settled (n : Word) (block caseFlag : Bool) (e : Ev) :
    (casingCycle n block caseFlag e).s.settled = e.s.settled := by
  rw [casingCycle, endCycle_settled, casingApply_settled, reconcileCq_settled, reconcileBq_settled, continuity_settled]
  rfl

theorem outfeed_settled (e : Ev) : (outfeed e).2.s.settled = e.s.settled := by
  unfold outfeed
  split
  · rfl
  · dsimp only
    split
    · rfl
    · exact raiseCause_settled ..

theorem shift_settled (p : Presence BookRecord) (e : Ev) : (shift p e).s.settled = e.s.settled := by
  rw [shift]
  split <;> rfl

theorem pressIndex_settled (n : Word) (flag : Bool) (e : Ev) : (pressIndex n flag e).s.settled = e.s.settled := by
  have marked (e : Ev) : (markSuspects e).s.settled = e.s.settled := rfl
  rw [pressIndex, endCycle_settled, advanceStale_settled, marked, shift_settled,
    outfeed_settled, reconcileTq_settled, continuity_settled]

theorem TitleTable.proofLookup_keeps (t : TitleTable) (key : TitleKey) :
    (t.proofLookup key).2.protect = t.protect ∧ (t.proofLookup key).2.activeBank = t.activeBank := by
  unfold TitleTable.proofLookup
  split
  · split <;> exact ⟨rfl, rfl⟩
  · exact ⟨rfl, rfl⟩

theorem routeBook_settled (k : BookRecord) (without : Bool) (e : Ev) :
    (routeBook k without e).2.s.settled = e.s.settled := by
  unfold routeBook
  split_ifs
  · rfl
  · rfl
  · obtain ⟨hp, ha⟩ := e.s.titles.proofLookup_keeps k.key
    exact State.settled_of_titles rfl hp ha

theorem passBook_settled (k : BookRecord) (without : Bool) (action : JacketAction) (more : List Tally) (e : Ev) :
    (passBook k without action more e).2.s.settled = e.s.settled := routeBook_settled k without _

theorem jacketApply_settled (l : Limits) (d : JacketCase) (e : Ev) : (jacketApply l d e).2.s.settled = e.s.settled := by
  cases d with
  | unjacketed k => exact passBook_settled ..
  | noJacket k => exact passBook_settled ..
  | apply k j => exact passBook_settled ..
  | bookWaits k => exact starveAlert_settled ..
  | jacketWaits j => exact starveAlert_settled ..
  | _ => rfl

theorem jacketCycle_settled (n : Word) (book jacketFlag : Bool) (e : Ev) :
    (jacketCycle n book jacketFlag e).s.settled = e.s.settled := by
  rw [jacketCycle, endCycle_settled, jacketApply_settled, reconcileJq_settled, reconcileAq_settled, continuity_settled]

theorem cycle_settled (src : Node) (p : List Byte) (e : Ev) : (cycle src p e).s.settled = e.s.settled := by
  rw [cycle]
  split
  · rfl
  · split
    · rfl
    case h_2 m _ =>
      split
      · cases m with
        | casing => exact casingCycle_settled _ _ _ e
        | press => exact pressIndex_settled _ _ e
        | jacketer => exact jacketCycle_settled _ _ _ e
      · rfl

/-! ### Requests of Run Control -/

theorem TitleTable.setStandby_keeps (t : TitleTable) (b : Bank) :
    (t.setStandby b).protect = t.protect ∧ (t.setStandby b).activeBank = t.activeBank := by
  unfold TitleTable.setStandby TitleTable.activeBank
  split
  · next h => exact ⟨rfl, by rw [h]; rfl⟩
  · next h => exact ⟨rfl, by rw [h]; rfl⟩

theorem ctrlStart_settled (tag : Byte) (e : Ev) : (ctrlStart tag e).s.settled = e.s.settled := by
  unfold ctrlStart
  split
  · exact answer_settled ..
  · split <;> exact answer_settled ..

theorem ctrlDrain_settled (tag : Byte) (e : Ev) : (ctrlDrain tag e).s.settled = e.s.settled := by
  have checked (before : Queues) {x : Ev} (hx : x.s.settled = e.s.settled) :
      (computeLevels before (checkDrain (answer tag .ok .none x))).s.settled = e.s.settled :=
    (computeLevels_settled ..).trans
      ((checkDrain_settled _).trans ((answer_settled ..).trans hx))
  unfold ctrlDrain
  split
  · exact answer_settled ..
  · exact answer_settled ..
  · exact checked e.s.queues (State.settled_of_holdings ((formPauses_holdings _).trans (enterDrain_holdings e)))
  · split
    · exact answer_settled ..
    · exact checked e.s.queues (State.settled_of_holdings (enterDrain_holdings e))

/-- The end of a request that empties collections: its REPLY, its tallies and the feed levels. -/
theorem emptied_settled (before : Queues) (ys : List Tally) (tag : Byte) (e : Ev) :
    (computeLevels before (handTallies ys (answer tag .ok .none e))).s.settled = e.s.settled := by
  rw [computeLevels_settled, handTallies_settled, answer_settled]

theorem ctrlAbort_settled (tag : Byte) (e : Ev) : (ctrlAbort tag e).s.settled = e.s.settled := by
  rw [ctrlAbort]
  split
  · exact answer_settled ..
  · exact (emptied_settled ..).trans (purgeAll_settled [.bq, .cq, .jq, .tq, .pt, .aq] e)

theorem ctrlPurge_settled (tag arg : Byte) (e : Ev) : (ctrlPurge tag arg e).s.settled = e.s.settled := by
  rw [ctrlPurge]
  split
  · exact answer_settled ..
  · split
    · exact answer_settled ..
    · exact emptied_settled ..

theorem ctrlReset_settled (tag : Byte) (e : Ev) : (ctrlReset tag e).s.settled = e.s.settled := by
  have configs : (IronMonitor.reset (e.s.iron.comparators.map Comparator.config)).comparators.map Comparator.config
      = e.s.iron.comparators.map Comparator.config := by
    refine Table.ext_get fun i => ?_
    rw [IronMonitor.reset, Table.get_map, Table.get_map]
    rfl
  exact congrArg (fun t => { e.s.settled with configs := t }) configs

theorem ctrlArm_settled (tag : Byte) (e : Ev) : (ctrlArm tag e).s.settled = e.s.settled := by
  unfold ctrlArm
  split <;> exact answer_settled ..

theorem ctrlDisarm_settled (tag : Byte) (e : Ev) : (ctrlDisarm tag e).s.settled = e.s.settled :=
  answer_settled ..

theorem ctrlCopy_settled (tag : Byte) (e : Ev) : (ctrlCopy tag e).s.settled = e.s.settled := by
  unfold ctrlCopy
  split
  · obtain ⟨hp, ha⟩ := e.s.titles.setStandby_keeps e.s.titles.copied
    exact State.settled_of_titles (answer_holdings ..) hp ha
  · exact answer_settled ..

theorem ctrlRequest_settled (r : Request) (tag arg : Byte) (e : Ev) :
    (ctrlRequest r tag arg e).s.settled = e.s.settled := by
  cases r with
  | start => exact ctrlStart_settled tag e
  | halt => exact State.settled_of_holdings (ctrlHalt_holdings tag e)
  | resume => exact State.settled_of_holdings (ctrlResume_holdings tag e)
  | drain => exact ctrlDrain_settled tag e
  | abort => exact ctrlAbort_settled tag e
  | purge => exact ctrlPurge_settled tag arg e
  | clear => exact State.settled_of_holdings (ctrlClear_holdings tag e)
  | reset => exact ctrlReset_settled tag e
  | arm => exact ctrlArm_settled tag e
  | disarm => exact ctrlDisarm_settled tag e
  | copy => exact ctrlCopy_settled tag e
  | store => exact State.settled_of_holdings (ctrlStore_holdings tag e)
  | proof => exact State.settled_of_holdings (ctrlProof_holdings tag e)

theorem ctrl_settled (tag : Byte) (p : List Byte) (e : Ev) : (ctrl tag p e).s.settled = e.s.settled := by
  unfold ctrl
  split
  · exact answer_settled ..
  · split
    · exact answer_settled ..
    · exact ctrlRequest_settled _ tag _ e

end Sys2Proof.Machine
end

section
/-! SUPPORT. What may change the settings: a WRITE of node 0 to the part, in CONFIG for those of a run; a MARK of node 0 with
the flag set changes the active bank (R4, R6, R7, R13, R14). Every command completes and leaves the waiting commands. -/

namespace Sys2Proof.Machine

/-! ### The settings of a run -/

/-- The settings that a run goes by, which are written in CONFIG only. -/
structure RunSettings where
  limits : Limits
  ccu : CaliperUnit
  lineMap : LineMap
  profiles : Table Profile 64
  recipes : Table Recipe 32
  ownNode : Node

def State.runSettings (s : State) : RunSettings :=
  ⟨s.limits, s.ccu, s.lineMap, s.profiles, s.dose.recipes, s.ring.ownNode⟩

def State.configs (s : State) : Table ComparatorConfig 4 := s.iron.comparators.map Comparator.config

theorem State.runSettings_of_settled {s t : State} (h : t.settled = s.settled) : t.runSettings = s.runSettings :=
  congrArg (fun x : Settled => (⟨x.limits, x.ccu, x.lineMap, x.profiles, x.recipes, x.ownNode⟩ : RunSettings)) h

/-- What an event keeps: waiting commands and phase in any case, the settings of a run unless the part is in CONFIG and
`writes`, comparators and protect level unless `writes`, the active bank unless `swaps`. -/
structure State.yields (writes swaps : Prop) (s t : State) : Prop where
  pending : t.pending = s.pending
  phase : t.phase = s.phase
  run : t.runSettings ≠ s.runSettings → s.rc.state = .config ∧ writes
  alarms : t.configs ≠ s.configs ∨ t.titles.protect ≠ s.titles.protect → writes
  bank : t.titles.activeBank ≠ s.titles.activeBank → swaps

variable {writes swaps : Prop}

theorem State.yields_of_settled {s t : State} (h : t.settled = s.settled) : s.yields writes swaps t where
  pending := congrArg Settled.pending h
  phase := congrArg Settled.phase h
  run hne := absurd (State.runSettings_of_settled h) hne
  alarms hne := hne.elim (absurd (congrArg Settled.configs h)) (absurd (congrArg Settled.protect h))
  bank hne := absurd (congrArg Settled.activeBank h) hne

/-- Settled changes before and after an event change nothing of what it keeps. -/
theorem State.yields.of_settled {s s' t t' : State} (h : s'.yields writes swaps t') (hs : s'.settled = s.settled)
    (hrc : s'.rc.state = s.rc.state) (ht : t.settled = t'.settled) : s.yields writes swaps t where
  pending := (congrArg Settled.pending ht).trans (h.pending.trans (congrArg Settled.pending hs))
  phase := (congrArg Settled.phase ht).trans (h.phase.trans (congrArg Settled.phase hs))
  run hne := by
    rw [State.runSettings_of_settled ht, ← State.runSettings_of_settled hs] at hne
    exact hrc ▸ h.run hne
  alarms hne := by
    have htc : t.configs = t'.configs := congrArg Settled.configs ht
    have hsc : s'.configs = s.configs := congrArg Settled.configs hs
    have htp : t.titles.protect = t'.titles.protect := congrArg Settled.protect ht
    have hsp : s'.titles.protect = s.titles.protect := congrArg Settled.protect hs
    rw [htc, ← hsc, htp, ← hsp] at hne
    exact h.alarms hne
  bank hne := by
    have htb : t.titles.activeBank = t'.titles.activeBank := congrArg Settled.activeBank ht
    have hsb : s'.titles.activeBank = s.titles.activeBank := congrArg Settled.activeBank hs
    rw [htb, ← hsb] at hne
    exact h.bank hne

theorem State.yields.mono {w x : Prop} {s t : State} (h : s.yields writes swaps t) (hw : writes → w) (hx : swaps → x) :
    s.yields w x t :=
  ⟨h.pending, h.phase, fun hne => (h.run hne).imp_right hw, fun hne => hw (h.alarms hne), fun hne => hx (h.bank hne)⟩

/-! ### WRITE -/

/-- A region's checks and its effect keep what a WRITE keeps. -/
def writesSettings (f : List Byte → State → Written) : Prop :=
  ∀ (p : List Byte) (s : State), s.yields True False (f p s).2

theorem State.yields_self (s : State) : s.yields writes swaps s := State.yields_of_settled rfl

/-- An effect on the settings of a run alone, in CONFIG. -/
theorem State.yields_run {s t : State} (hconfig : s.rc.state = .config) (hp : t.pending = s.pending)
    (hph : t.phase = s.phase) (ht : t.titles = s.titles) : s.yields True swaps t where
  pending := hp
  phase := hph
  run _ := ⟨hconfig, trivial⟩
  alarms _ := trivial
  bank hne := absurd (congrArg TitleTable.activeBank ht) hne

theorem writeRegion_yields {f : List Byte → State → Written} (h : writesSettings f) (tag : Byte) (p : List Byte) (e : Ev) :
    e.s.yields True False (writeRegion f tag p e).s :=
  (h p e.s).of_settled rfl rfl (respond_settled ..)

theorem writeTitle_writes : writesSettings writeTitle := fun p s => by
  unfold writeTitle
  split
  · exact s.yields_self
  · split
    · exact s.yields_self
    · split_ifs
      · exact s.yields_self
      · exact s.yields_self
      · obtain ⟨hp, ha⟩ := s.titles.setStandby_keeps (s.titles.standbyBank.setFrom (reqIndex p) ‹_›)
        exact State.yields_of_settled (State.settled_of_titles rfl hp ha)
      · exact s.yields_self

theorem writeDose_writes : writesSettings writeDose := fun p s => by
  unfold writeDose
  split
  · exact s.yields_self
  · split
    · exact s.yields_self
    · split_ifs with _ hrc
      · exact s.yields_self
      · exact s.yields_self
      · exact State.yields_run (not_not.mp hrc) rfl rfl rfl

theorem writeProfile_writes : writesSettings writeProfile := fun p s => by
  unfold writeProfile
  split
  · exact s.yields_self
  · split
    · exact s.yields_self
    · split_ifs with _ hrc
      · exact s.yields_self
      · exact s.yields_self
      · exact State.yields_run (not_not.mp hrc) rfl rfl rfl

theorem writeCalibration_writes : writesSettings writeCalibration := fun p s => by
  unfold writeCalibration
  split_ifs with _ _ hrc
  · exact s.yields_self
  · exact s.yields_self
  · exact s.yields_self
  · exact State.yields_run (not_not.mp hrc) rfl rfl rfl

theorem writeLimits_writes : writesSettings writeLimits := fun p s => by
  unfold writeLimits
  split_ifs with _ _ hrc
  · exact s.yields_self
  · exact s.yields_self
  · exact s.yields_self
  · exact State.yields_run (not_not.mp hrc) rfl rfl rfl

theorem writeLinemap_writes : writesSettings writeLinemap := fun p s => by
  unfold writeLinemap
  split_ifs with _ _ hrc
  · exact s.yields_self
  · exact s.yields_self
  · exact s.yields_self
  · exact State.yields_run (not_not.mp hrc) rfl rfl rfl

theorem writeNode_writes : writesSettings writeNode := fun p s => by
  unfold writeNode
  split_ifs with _ _ hrc
  · exact s.yields_self
  · exact s.yields_self
  · exact s.yields_self
  · exact s.yields_self
  · exact State.yields_run (not_not.mp hrc) rfl rfl rfl

/-- An effect on the comparators and the protect level alone. -/
theorem State.yields_alarms {s t : State} (hp : t.pending = s.pending) (hph : t.phase = s.phase)
    (hr : t.runSettings = s.runSettings) (ha : t.titles.activeBank = s.titles.activeBank) : s.yields True swaps t where
  pending := hp
  phase := hph
  run hne := absurd hr hne
  alarms _ := trivial
  bank hne := absurd ha hne

theorem writeProtect_writes : writesSettings writeProtect := fun p s => by
  unfold writeProtect
  split_ifs
  · exact s.yields_self
  · exact s.yields_self
  · exact s.yields_self
  · exact State.yields_alarms rfl rfl rfl rfl

theorem writeComparators_yields (i : Nat) (cs : List ComparatorConfig) (e : Ev) :
    e.s.yields True False (writeComparators i cs e).s := by
  have kept : (writeComparators i cs e).s.pending = e.s.pending ∧ (writeComparators i cs e).s.phase = e.s.phase
      ∧ (writeComparators i cs e).s.runSettings = e.s.runSettings
      ∧ (writeComparators i cs e).s.titles = e.s.titles := by
    induction cs generalizing i e with
    | nil => exact ⟨rfl, rfl, rfl, rfl⟩
    | cons c cs ih =>
      rw [writeComparators]
      obtain ⟨hp, hph, hr, ht⟩ := ih (i + 1) (if (e.s.iron.comparators.get (Fin.ofNat 4 i)).on then _ else _)
      refine ⟨hp.trans ?_, hph.trans ?_, hr.trans ?_, ht.trans ?_⟩ <;> split <;> rfl
  obtain ⟨hp, hph, hr, ht⟩ := kept
  exact State.yields_alarms hp hph hr (congrArg TitleTable.activeBank ht)

theorem writeTo_yields (r : Region) (tag : Byte) (p : List Byte) (e : Ev) : e.s.yields True False (writeTo r tag p e).s := by
  cases r with
  | title => exact writeRegion_yields writeTitle_writes tag p e
  | dose => exact writeRegion_yields writeDose_writes tag p e
  | profile => exact writeRegion_yields writeProfile_writes tag p e
  | calibration => exact writeRegion_yields writeCalibration_writes tag p e
  | limits => exact writeRegion_yields writeLimits_writes tag p e
  | linemap => exact writeRegion_yields writeLinemap_writes tag p e
  | node => exact writeRegion_yields writeNode_writes tag p e
  | protect => exact writeRegion_yields writeProtect_writes tag p e
  | comparator => exact (writeComparators_yields _ _ e).of_settled rfl rfl (respond_settled ..)
  | _ => exact State.yields_of_settled (respond_settled ..)

theorem write_yields (tag : Byte) (p : List Byte) (e : Ev) : e.s.yields True False (write tag p e).s := by
  unfold write
  split
  · exact State.yields_of_settled (respond_settled ..)
  · split
    · exact State.yields_of_settled (respond_settled ..)
    · exact writeTo_yields _ tag p e

/-! ### MARK -/

theorem mark_yields (src : Node) (p : List Byte) (e : Ev) :
    e.s.yields False (src = 0 ∧ e.s.titles.armed = true) (mark src p e).s := by
  by_cases hform : p.length = 2 ∧ src = 0
  · obtain ⟨hlen, hsrc⟩ := hform
    cases harmed : e.s.titles.armed with
    | false =>
      rw [mark_unarmed hlen hsrc harmed]
      exact State.yields_of_settled rfl
    | true =>
      rw [mark_armed hlen hsrc harmed]
      exact ⟨rfl, rfl, fun hne => absurd rfl hne, fun hne => hne.elim (absurd rfl) (absurd rfl), fun _ => ⟨hsrc, rfl⟩⟩
  · rw [mark, if_neg hform]
    exact e.s.yields_self

/-! ### Reception -/

theorem fromMaster_yields {src : Node} {f : Ev → Ev} {e : Ev} (h : e.s.yields writes swaps (f e).s) :
    e.s.yields (writes ∧ src = 0) swaps (fromMaster src f e).s := by
  unfold fromMaster
  split
  · next hsrc => exact h.mono (fun hw => ⟨hw, hsrc⟩) id
  · exact e.s.yields_self

theorem fromMaster_settled {src : Node} {f : Ev → Ev} {e : Ev} (h : (f e).s.settled = e.s.settled) :
    (fromMaster src f e).s.settled = e.s.settled := by
  unfold fromMaster
  split
  · exact h
  · rfl

theorem take_yields (m : Message) (e : Ev) :
    e.s.yields (m.kind = 0x21 ∧ m.src = 0) (m.kind = 4 ∧ m.src = 0 ∧ e.s.titles.armed = true) (take m e).s := by
  rw [take]
  cases hk : Kind.ofCode m.kind with
  | none => exact State.yields_of_settled (fromMaster_settled (answer_settled ..))
  | some k =>
    have hcode := Kind.code_of_ofCode hk
    cases k with
    | sight => exact State.yields_of_settled (sight_settled ..)
    | cycle => exact State.yields_of_settled (cycle_settled ..)
    | sense => exact State.yields_of_settled (sense_settled ..)
    | mark => exact (mark_yields m.src m.payload e).mono False.elim fun hx => ⟨hcode.symm, hx⟩
    | ctrl => exact State.yields_of_settled (fromMaster_settled (ctrl_settled ..))
    | write => exact (fromMaster_yields (write_yields ..)).mono (fun hw => ⟨hcode.symm, hw.2⟩) False.elim
    | read => exact State.yields_of_settled (fromMaster_settled (State.settled_of_holdings (read_holdings ..)))
    | _ => exact State.yields_of_settled rfl

/-- No WRITE is taken when it is broadcast (R149). -/
theorem not_write_of_broadcast {m : Message} (h : takenWhenBroadcast m = true) : m.kind ≠ 0x21 := by
  intro hk
  rw [takenWhenBroadcast, hk] at h
  exact absurd h (by decide)

theorem forward_settled (m : Message) (e : Ev) : (forward m e).s.settled = e.s.settled :=
  State.settled_of_holdings (forward_holdings m e)

theorem forward_rc (m : Message) (e : Ev) : (forward m e).s.rc = e.s.rc := by
  unfold forward
  split <;> rfl

theorem forward_titles (m : Message) (e : Ev) : (forward m e).s.titles = e.s.titles := by
  unfold forward
  split <;> rfl

theorem dispose_yields (m : Message) (e : Ev) :
    e.s.yields (m.kind = 0x21 ∧ m.src = 0 ∧ m.dst = e.s.ring.ownNode)
      (m.kind = 4 ∧ m.src = 0 ∧ e.s.titles.armed = true) (dispose m e).s := by
  unfold dispose
  split_ifs with _ hown hall
  · exact State.yields_of_settled (State.settled_of_holdings (stripped_holdings m e))
  · exact (take_yields m e).mono (fun hw => ⟨hw.1, hw.2, hown⟩) id
  · have taken := (take_yields m (forward m e)).of_settled (forward_settled m e)
      (congrArg RunControl.state (forward_rc m e)) rfl
    rw [forward_titles] at taken
    exact taken.mono (fun hw => absurd hw.1 (not_write_of_broadcast hall.2)) id
  · exact State.yields_of_settled (forward_settled m e)

/-- What arrives changes the settings only as a WRITE of node 0 addressed to the part, and the active bank only as a MARK
of node 0 with the flag set. -/
theorem receive_yields (m : Message) (s : State) :
    s.yields (s.phase = .running ∧ m.kind = 0x21 ∧ m.src = 0 ∧ m.dst = s.ring.ownNode)
      (m.kind = 4 ∧ m.src = 0 ∧ s.titles.armed = true) (receive m s) := by
  unfold receive event
  split
  · next hrun =>
    have hend : ∀ e : Ev, (finish e).settled = e.s.settled := fun e => State.settled_of_holdings (finish_holdings e)
    split
    · have harr : goodReceived m (Ev.start s) = dispose m s.arrival := congrArg (dispose m) s.arrival_eq
      have disposed := (dispose_yields m s.arrival).of_settled (State.settled_of_holdings s.arrival_holdings)
        (congrArg RunControl.state s.arrived_rc) rfl
      rw [harr]
      refine (disposed.of_settled rfl rfl (hend _)).mono ?_ ?_
      · rintro ⟨hk, hsrc, hdst⟩
        exact ⟨hrun, hk, hsrc, hdst.trans s.arrived_ownNode⟩
      · rintro ⟨hk, hsrc, harmed⟩
        exact ⟨hk, hsrc, (congrArg TitleTable.armed s.arrived_titles).symm.trans harmed⟩
    · exact State.yields_of_settled ((hend _).trans (State.settled_of_holdings (badReceived_holdings _)))
  · exact s.yields_self

/-! ### Every command -/

theorem State.withPinsOf_settled (c : Instr) (s : State) : (s.withPinsOf c).settled = s.settled := by
  cases c <;> rfl

theorem State.withPinsOf_rc (c : Instr) (s : State) : (s.withPinsOf c).rc = s.rc := by
  cases c <;> rfl

theorem State.withPinsOf_titles (c : Instr) (s : State) : (s.withPinsOf c).titles = s.titles := by
  cases c <;> rfl

theorem event_holdings {f : Ev → Ev} {s : State} (h : (f (Ev.start s)).s.holdings = s.holdings) :
    (event f s).holdings = s.holdings := by
  unfold event
  split
  · rw [finish_holdings, h]
  · rfl

theorem receiveBytes_holdings {bytes : List Byte} (h : decode bytes = none) (s : State) :
    (receiveBytes bytes s).holdings = s.holdings := by
  unfold receiveBytes
  rw [h]
  exact event_holdings (badReceived_holdings _)

theorem loadComplete_holdings (s : State) : ∃ ph, (loadComplete s).holdings = { s.holdings with phase := ph } := by
  unfold loadComplete
  split
  · refine ⟨.running, (finish_holdings _).trans ?_⟩
    split
    · exact congrArg (fun h : Holdings => { h with phase := .running }) (found_holdings (Ev.start s))
    · rfl
  · exact ⟨s.phase, rfl⟩

/-- A command that carries no message leaves the settings alone, unless it is one of power-on. -/
theorem exec_uncarried_holdings {c : Instr} {s t : State} (hc : carried c = none) (hn : ∀ n, c ≠ .powerOnReset n)
    (hl : ∀ cells, c ≠ .powerOnLoad cells) (h : exec c s = .next t) :
    ∃ ph, t.holdings = { s.holdings with phase := ph } := by
  have still {u : State} (hu : u.holdings = s.holdings) : ∃ ph, u.holdings = { s.holdings with phase := ph } := ⟨s.phase, hu⟩
  cases c with
  | powerOnReset n => exact absurd rfl (hn n)
  | powerOnLoad cells => exact absurd rfl (hl cells)
  | loadComplete => exact Host.Outcome.next.inj h ▸ loadComplete_holdings s
  | carrierFound =>
    exact Host.Outcome.next.inj h ▸ still (event_holdings (s := { s with pins := { s.pins with carrier := true } })
      (found_holdings _))
  | carrierLost =>
    exact Host.Outcome.next.inj h ▸ still (event_holdings (s := { s with pins := { s.pins with carrier := false } })
      (carrierGone_holdings _))
  | badMessage bytes => exact Host.Outcome.next.inj h ▸ still (receiveBytes_holdings hc s)
  | consecutiveBadLimit bytes => exact Host.Outcome.next.inj h ▸ still (receiveBytes_holdings hc s)
  | storeDone => exact Host.Outcome.next.inj h ▸ still (event_holdings (storeDone_holdings _))
  | proofTimeout => exact Host.Outcome.next.inj h ▸ still (event_holdings (proofExpired_holdings _))
  | transmitComplete => exact Host.Outcome.next.inj h ▸ still (event_holdings (transmitted_holdings _))
  | _ => cases hc

/-- A message that a command carries does to the settings what its arrival does, whatever pin level comes with it. -/
theorem exec_carried_yields (c : Instr) (m : Message) (s : State) :
    s.yields (s.phase = .running ∧ m.kind = 0x21 ∧ m.src = 0 ∧ m.dst = s.ring.ownNode)
      (m.kind = 4 ∧ m.src = 0 ∧ s.titles.armed = true) (receive m (s.withPinsOf c)) := by
  have received := (receive_yields m (s.withPinsOf c)).of_settled (s.withPinsOf_settled c)
    (congrArg RunControl.state (s.withPinsOf_rc c)) rfl
  rwa [State.withPinsOf_phase, State.withPinsOf_ring, State.withPinsOf_titles] at received

/-! ### The statements -/

theorem powerOnLoad_pending (cells : CellReport) (s : State) : (powerOnLoad cells s).pending = s.pending := by
  have judged (n : Nat) (js : List Judged) (e : Ev) : (judgedAlerts n js e).s.pending = e.s.pending := by
    induction js generalizing n e with
    | nil => rfl
    | cons j js ih =>
      rw [judgedAlerts, ih]
      cases j <;> rfl
  unfold powerOnLoad
  split
  · exact (congrArg Holdings.pending (finish_holdings _)).trans (judged 1 _ _)
  · rfl

/-- No command faults or is refused. -/
theorem exec_total (c : Instr) (s : State) : ∃ t, exec c s = .next t := by
  cases c <;> exact ⟨_, rfl⟩

/-- Settles O2: a command that carries a message leaves the waiting commands as its arrival does, and so do the others,
power-on included. -/
theorem everyCommandCompletes : Obligations.EveryCommandCompletes := by
  intro c s
  obtain ⟨t, h⟩ := exec_total c s
  refine ⟨t, h, ?_⟩
  cases hc : carried c with
  | some m =>
    rw [exec_carried hc] at h
    exact Host.Outcome.next.inj h ▸ (exec_carried_yields c m s).pending
  | none =>
    by_cases hn : ∃ n, c = .powerOnReset n
    · obtain ⟨n, rfl⟩ := hn
      exact Host.Outcome.next.inj h ▸ rfl
    by_cases hl : ∃ cells, c = .powerOnLoad cells
    · obtain ⟨cells, rfl⟩ := hl
      exact Host.Outcome.next.inj h ▸ powerOnLoad_pending cells s
    obtain ⟨ph, hh⟩ := exec_uncarried_holdings hc (fun n hn' => hn ⟨n, hn'⟩) (fun cells hl' => hl ⟨cells, hl'⟩) h
    exact congrArg Holdings.pending hh

/-- Settles O60, by what each operation of an event leaves of the settings: only the WRITEs change them, those of a run in
CONFIG, and only an armed MARK exchanges the banks. -/
theorem settingsHeldStill : Obligations.SettingsHeldStill := by
  intro c s t h hn hl writes
  have kept : s.yields writes (∃ m, carried c = some m ∧ m.kind = 4 ∧ m.src = 0 ∧ s.titles.armed = true)
      { t with phase := s.phase } := by
    cases hc : carried c with
    | some m =>
      rw [exec_carried hc] at h
      obtain rfl := Host.Outcome.next.inj h
      have arrived := exec_carried_yields c m s
      refine (arrived.of_settled rfl rfl ?_).mono ?_ fun hx => ⟨m, rfl, hx⟩
      · exact congrArg (fun ph => { (receive m (s.withPinsOf c)).settled with phase := ph }) arrived.phase.symm
      · rintro ⟨hrun, hk, hsrc, hdst⟩
        exact ⟨hrun, m, hc, hk, hsrc, hdst⟩
    | none =>
      obtain ⟨ph, hh⟩ := exec_uncarried_holdings hc hn hl h
      exact State.yields_of_settled (congrArg (fun x : Holdings => { x.settled with phase := s.phase }) hh)
  refine ⟨fun hne => kept.run fun heq => ?_, kept.alarms, kept.bank⟩
  obtain ⟨hlim, hccu, hmap, hprof, hrec, hown⟩ := RunSettings.mk.inj heq
  rcases hne with hne | hne | hne | hne | hne | hne
  exacts [hne hlim, hne hccu, hne hmap, hne hprof, hne hrec, hne hown]

end Sys2Proof.Machine
end

section
/-! SUPPORT. The invariant of the data, block by block: the Title Table, the Dose Unit and the comparators keep it through
each of their operations (R1, R2, R5, R16, R30, R33, R97, R103). -/

namespace Sys2Proof.Machine

/-! ### Tables -/

theorem Table.forall_mem_iff {α : Type} {n : Nat} {t : Table α n} {P : α → Prop} :
    (∀ x ∈ t.list, P x) ↔ ∀ i, P (t.get i) := by
  simp only [Table.mem_list_iff, forall_exists_index, forall_apply_eq_imp_iff]

theorem Table.forall_set {α : Type} {n : Nat} {t : Table α n} {P : α → Prop} (h : ∀ i, P (t.get i)) {x : α} (hx : P x)
    (k i : Fin n) : P ((t.set k x).get i) := by
  rw [Table.get_set]
  split
  · exact hx
  · exact h i

theorem Table.forall_setFrom {α : Type} {n : Nat} [NeZero n] {t : Table α n} {P : α → Prop} (h : ∀ i, P (t.get i))
    {xs : List α} (hx : ∀ x ∈ xs, P x) (k : Nat) (i : Fin n) : P ((t.setFrom k xs).get i) := by
  induction xs generalizing t k with
  | nil => exact h i
  | cons x xs ih =>
    rw [List.forall_mem_cons] at hx
    exact ih (Table.forall_set h hx.1 _) hx.2 _

/-- What holds of every decoded record holds of all that a WRITE carries. -/
theorem forall_of_decodeAll {α : Type} {f : List Byte → Option α} {P : α → Prop} (h : ∀ p x, f p = some x → P x)
    {ps : List (List Byte)} {xs : List α} (hxs : decodeAll f ps = some xs) : ∀ x ∈ xs, P x := by
  induction ps generalizing xs with
  | nil =>
    obtain rfl := Option.some.inj hxs
    exact fun x hx => absurd hx List.not_mem_nil
  | cons p ps ih =>
    rw [decodeAll] at hxs
    split at hxs
    · next y ys hy hys =>
      obtain rfl := Option.some.inj hxs
      exact List.forall_mem_cons.mpr ⟨h p y hy, ih hys⟩
    · cases hxs

/-! ### The Title Table -/

/-- A bank of sound slots with no key twice. -/
def Bank.sound (b : Bank) : Prop := (∀ i, (b.get i).sound) ∧ Bank.unique b

theorem TitleTable.sound_iff (t : TitleTable) :
    t.sound ↔ Bank.sound t.activeBank ∧ Bank.sound t.standbyBank
      ∧ ∀ i, t.proofLeft.get i ≤ (t.activeBank.get i).proofCount := by
  unfold TitleTable.sound
  rw [List.forall_mem_append, Table.forall_mem_iff, Table.forall_mem_iff, TitleTable.activeBank, TitleTable.standbyBank]
  cases t.active with
  | a => exact ⟨fun ⟨⟨ha, hb⟩, ua, ub, hp⟩ => ⟨⟨ha, ua⟩, ⟨hb, ub⟩, hp⟩, fun ⟨⟨ha, ua⟩, ⟨hb, ub⟩, hp⟩ => ⟨⟨ha, hb⟩, ua, ub, hp⟩⟩
  | b => exact ⟨fun ⟨⟨ha, hb⟩, ua, ub, hp⟩ => ⟨⟨hb, ub⟩, ⟨ha, ua⟩, hp⟩, fun ⟨⟨hb, ub⟩, ⟨ha, ua⟩, hp⟩ => ⟨⟨ha, hb⟩, ua, ub, hp⟩⟩

/-- A record decoded from a WRITE is that of an empty slot or in range (R2, Table 1-1). -/
theorem TitleRecord.sound_of_decode (p : List Byte) (r : TitleRecord) (h : TitleRecord.decode p = some r) : r.sound := by
  unfold TitleRecord.decode at h
  split at h
  · obtain rfl := Option.some.inj h
    exact .inl rfl
  · next hkey =>
    split at h
    · next hrange =>
      obtain rfl := Option.some.inj h
      obtain ⟨hcase, hn1, hn2, ht, -, hb, hab, hh1, hh2, hw1, hw2, -, -, hp⟩ := hrange
      exact .inr ⟨hkey, hcase, ⟨hn1, hn2⟩, ht, hab, hb, ⟨hh1, hh2⟩, ⟨hw1, hw2⟩, hp⟩
    · cases h

section Titles
variable {t : TitleTable}

theorem TitleTable.setStandby_sound (h : t.sound) {b : Bank} (hb : Bank.sound b) : (t.setStandby b).sound := by
  obtain ⟨ha, -, hp⟩ := t.sound_iff.mp h
  have hactive := (t.setStandby_keeps b).2
  have hstandby : (t.setStandby b).standbyBank = b := by
    unfold TitleTable.setStandby TitleTable.standbyBank
    cases t.active <;> rfl
  have hleft : (t.setStandby b).proofLeft = t.proofLeft := by
    unfold TitleTable.setStandby
    split <;> rfl
  refine (TitleTable.sound_iff _).mpr ⟨?_, ?_, ?_⟩
  · rwa [hactive]
  · rwa [hstandby]
  · rwa [hactive, hleft]

theorem TitleTable.loadProofs_sound (h : t.sound) : t.loadProofs.sound := by
  obtain ⟨ha, hs, -⟩ := t.sound_iff.mp h
  refine (TitleTable.sound_iff _).mpr ⟨ha, hs, fun i => ?_⟩
  rw [TitleTable.loadProofs, Table.get_map]
  exact le_rfl

/-- An exchange of the banks makes the standby bank the active one and loads the proof counts from it (R14). -/
theorem TitleTable.swap_sound (h : t.sound) : t.swap.sound := by
  obtain ⟨ha, hs, -⟩ := t.sound_iff.mp h
  have hback : t.swap.standbyBank = t.activeBank := by
    unfold TitleTable.swap TitleTable.loadProofs TitleTable.standbyBank TitleTable.activeBank
    cases t.active <;> rfl
  have hforth : t.swap.activeBank = t.standbyBank := rfl
  refine (TitleTable.sound_iff _).mpr ⟨hforth ▸ hs, hback ▸ ha, fun i => ?_⟩
  change (Table.map _ _).get i ≤ _
  rw [Table.get_map]
  exact le_rfl

theorem TitleTable.lineReset_sound (h : t.sound) : t.lineReset.sound := by
  obtain ⟨ha, hs, -⟩ := t.sound_iff.mp h
  refine (TitleTable.sound_iff _).mpr ⟨ha, hs, fun i => ?_⟩
  rw [TitleTable.lineReset, Table.get_fill]
  exact Nat.zero_le _

theorem TitleTable.proofLookup_sound (h : t.sound) (key : TitleKey) : (t.proofLookup key).2.sound := by
  obtain ⟨ha, hs, hp⟩ := t.sound_iff.mp h
  unfold TitleTable.proofLookup
  split
  · next k _ =>
    split
    · refine (TitleTable.sound_iff _).mpr ⟨ha, hs, fun i => ?_⟩
      change (t.proofLeft.set k (t.proofLeft.get k - 1)).get i ≤ (t.activeBank.get i).proofCount
      rw [Table.get_set]
      split
      · next hk => exact hk ▸ (Nat.sub_le _ _).trans (hp k)
      · exact hp i
    · exact h
  · exact h

/-- A change that leaves banks, indicator and counts alone (R9, R10, R11, R13). -/
theorem TitleTable.sound_of_eq {u : TitleTable} (h : t.sound) (ha : u.bankA = t.bankA) (hb : u.bankB = t.bankB)
    (hact : u.active = t.active) (hleft : u.proofLeft = t.proofLeft) : u.sound := by
  obtain ⟨hr, hua, hub, hp⟩ := h
  have hbank : u.activeBank = t.activeBank := by
    unfold TitleTable.activeBank TitleTable.bank
    rw [hact, ha, hb]
  refine ⟨?_, ?_, ?_, ?_⟩
  · rwa [ha, hb]
  · rwa [ha]
  · rwa [hb]
  · rwa [hbank, hleft]

/-- The bank a COPY leaves is sound when it repeats no key (R12). -/
theorem TitleTable.copied_sound (h : t.sound) (hu : Bank.keysUnique t.copied = true) : Bank.sound t.copied := by
  obtain ⟨ha, hs, -⟩ := t.sound_iff.mp h
  refine ⟨fun i => ?_, (Bank.keysUnique_iff _).mp hu⟩
  rw [TitleTable.copied_get]
  split
  · exact ha.1 i
  · exact hs.1 i

end Titles

/-! ### The Dose Unit -/

section Doses
variable {u : DoseUnit}

theorem DoseUnit.clearCarries_sound (h : u.sound) : u.clearCarries.sound := DoseUnit.sound_clear h.1

/-- Every recipe's shot size is at least 1 (Table 2-3). -/
theorem DoseUnit.shot_pos (h : u.sound) (i : Fin 32) : 0 < (u.recipes.get i).shot := by
  have hin := h.1 _ (Table.mem_list_iff.mpr ⟨i, rfl⟩)
  rw [Recipe.inRange, decide_eq_true_iff] at hin
  exact hin.2.2.1

theorem recipeOf_leftCarry (r : Fin 32) : Fin.ofNat 32 ((leftCarry r).val / 2) = r := by
  apply Fin.ext
  simp only [leftCarry, Fin.ofNat]
  omega

theorem recipeOf_rightCarry (r : Fin 32) : Fin.ofNat 32 ((rightCarry r).val / 2) = r := by
  apply Fin.ext
  simp only [rightCarry, Fin.ofNat]
  omega

/-- A carry below its recipe's shot size may take its place (R33). -/
theorem DoseUnit.setCarry_sound (h : u.sound) {k : Fin 64} {x : Nat}
    (hx : x < (u.recipes.get (Fin.ofNat 32 (k.val / 2))).shot) : DoseUnit.sound { u with carries := u.carries.set k x } := by
  refine ⟨h.1, fun i => ?_⟩
  change (u.carries.set k x).get i < (u.recipes.get (Fin.ofNat 32 (i.val / 2))).shot
  rw [Table.get_set]
  split
  · next hk => exact hk ▸ hx
  · exact h.2 i

/-- A match leaves remainders below the shot size (R33, R34). -/
theorem DoseUnit.dose_sound (h : u.sound) (d : TitleData) : (u.dose d).unit.sound := by
  have hshot := u.shot_pos h d.recipe
  have hl := h.2 (leftCarry d.recipe)
  have hr := h.2 (rightCarry d.recipe)
  rw [recipeOf_leftCarry] at hl
  rw [recipeOf_rightCarry] at hr
  have left : DoseUnit.sound { u with carries := u.carries.set (leftCarry d.recipe) (u.dose d).left.carry } := by
    refine DoseUnit.setCarry_sound h ?_
    rw [recipeOf_leftCarry]
    exact doseSide_carry_lt hshot hl
  refine DoseUnit.setCarry_sound left ?_
  change _ < (u.recipes.get _).shot
  rw [recipeOf_rightCarry]
  exact doseSide_carry_lt hshot hr

/-- A write of recipes in range clears the carries of each it replaces (R30). -/
theorem DoseUnit.write_sound (h : u.sound) (i : Nat) {rs : List Recipe} (hr : ∀ r ∈ rs, r.inRange = true) :
    (u.write i rs).sound := by
  induction rs generalizing u i with
  | nil => exact h
  | cons r rs ih =>
    rw [List.forall_mem_cons] at hr
    have hrecipes : ∀ k, ((u.recipes.set (Fin.ofNat 32 i) r).get k).inRange = true :=
      Table.forall_set (P := fun x : Recipe => x.inRange = true) (Table.forall_mem_iff.mp h.1) hr.1 _
    refine ih (i := i + 1) ⟨Table.forall_mem_iff.mpr hrecipes, fun j => ?_⟩ hr.2
    dsimp only
    have hin := hrecipes (Fin.ofNat 32 (j.val / 2))
    rw [Recipe.inRange, decide_eq_true_iff] at hin
    rw [get_clear_carries]
    split
    · exact hin.2.2.1
    · next hne =>
      rw [Table.get_set_other]
      · exact h.2 j
      · intro heq
        have hj := j.isLt
        have hval : i % 32 = j.val / 2 % 32 := congrArg Fin.val heq
        apply hne
        change j.val / 2 = i % 32
        omega

end Doses

/-! ### The comparators -/

/-- A comparator's configuration is in range, its tally below the confirm count, and a disabled one is OFF with tally 0
(R97, R103). -/
def Comparator.sound (c : Comparator) : Prop :=
  c.config.inRange = true ∧ c.tally < c.config.confirm ∧ (c.config.enable = false → c.on = false ∧ c.tally = 0)

theorem ComparatorConfig.confirm_pos {c : ComparatorConfig} (h : c.inRange = true) : 0 < c.confirm := by
  rw [ComparatorConfig.inRange, Bool.and_eq_true, decide_eq_true_iff] at h
  exact h.1.1

/-- A comparator set OFF with tally 0 is sound when its configuration is in range (R103, R105). -/
theorem Comparator.off_sound {c : ComparatorConfig} (h : c.inRange = true) : (Comparator.off c).sound :=
  ⟨h, c.confirm_pos h, fun _ => ⟨rfl, rfl⟩⟩

theorem Comparator.read_sound {c : Comparator} (h : c.sound) (v : Int) : (c.read v).sound := by
  obtain ⟨hr, ht, he⟩ := h
  have hpos := c.config.confirm_pos hr
  unfold Comparator.read
  split
  · next hon =>
    have enabled {x : Comparator} (hx : x.config = c.config) (hlt : x.tally < c.config.confirm) : x.sound := by
      refine ⟨hx ▸ hr, hx ▸ hlt, fun hoff => ?_⟩
      rw [hx, hon] at hoff
      cases hoff
    split
    · split
      · exact enabled rfl hpos
      · exact enabled rfl (by dsimp only; omega)
    · exact enabled rfl hpos
  · exact ⟨hr, ht, he⟩

theorem ComparatorRecord.config_inRange {r : ComparatorRecord} (h : r.inRange = true) : r.config.inRange = true := by
  rw [ComparatorRecord.inRange, Bool.and_eq_true] at h
  exact h.2

theorem ComparatorConfig.inRange_of_decode (p : List Byte) (c : ComparatorConfig)
    (h : ComparatorConfig.decode p = some c) : c.inRange = true := by
  unfold ComparatorConfig.decode at h
  split at h
  · next hr => exact Option.some.inj h ▸ ComparatorRecord.config_inRange hr
  · cases h

theorem Recipe.inRange_of_decode (p : List Byte) (r : Recipe) (h : Recipe.decode p = some r) : r.inRange = true := by
  unfold Recipe.decode at h
  split at h
  · next hr => exact Option.some.inj h ▸ hr
  · cases h

end Sys2Proof.Machine
end

section
/-! SUPPORT. The invariant of the data over the collections: no serial held twice, every count below its limit, kept by every
way an entry moves, changes or leaves (R26, R38, R40, R41, R64, R65, R69). -/

namespace Sys2Proof.Machine

/-! ### Serials -/

/-- A state's collections hold no serial more often than another's, within each item type. -/
def Queues.within (r q : Queues) : Prop :=
  (∀ i x, x ≠ 0 → (r.serials i).count x ≤ (q.serials i).count x) ∧ (q.named → r.named)

theorem Queues.within.trans {p q r : Queues} (h : r.within q) (k : q.within p) : r.within p :=
  ⟨fun i x hx => (h.1 i x hx).trans (k.1 i x hx), fun hp => h.2 (k.2 hp)⟩

theorem count_filter_nonzero {x : Serial} (hx : x ≠ 0) (l : List Serial) :
    (l.filter fun y => y != 0).count x = l.count x := by
  rw [List.count_filter]
  simpa using hx

/-- No serial held twice, told by how often each is held (R40, R41). -/
theorem Queues.serialsSound_iff (q : Queues) :
    q.serialsSound ↔ q.named ∧ ∀ i x, x ≠ 0 → (q.serials i).count x ≤ 1 := by
  have named : q.named ↔ (∀ b ∈ q.bq, b.serial ≠ 0) ∧ (∀ c ∈ q.cq, c.serial ≠ 0) ∧ ∀ j ∈ q.jq, j.serial ≠ 0 := by
    simp [Queues.named]
  have nodup {l : List Serial} (h0 : 0 ∉ l) : l.Nodup ↔ ∀ x, x ≠ 0 → l.count x ≤ 1 := by
    rw [List.nodup_iff_count_le_one]
    refine ⟨fun h x _ => h x, fun h x => ?_⟩
    by_cases hx : x = 0
    · rw [hx, List.count_eq_zero_of_not_mem h0]
      exact Nat.zero_le _
    · exact h x hx
  have block {x : Serial} (hx : x ≠ 0) : q.blockSerials.count x = (q.serials .block).count x := by
    simp only [Queues.blockSerials, Queues.serials, List.count_append, List.map_append, count_filter_nonzero hx]
    omega
  rw [Queues.serialsSound, ItemType.forall_iff, ← named]
  constructor
  · rintro ⟨hb, hc, hj, hn⟩
    exact ⟨hn, fun x hx => block hx ▸ List.nodup_iff_count_le_one.mp hb x, (nodup hn.2.1).mp hc, (nodup hn.2.2).mp hj⟩
  · rintro ⟨hn, hb, hc, hj⟩
    refine ⟨(nodup ?_).mpr fun x hx => (block hx).symm ▸ hb x hx, (nodup hn.2.1).mpr hc, (nodup hn.2.2).mpr hj, hn⟩
    rw [Queues.blockSerials, List.mem_append]
    rintro (h0 | h0)
    · exact hn.1 h0
    · simp at h0

theorem Queues.within.serialsSound {q r : Queues} (h : r.within q) (hq : q.serialsSound) : r.serialsSound := by
  rw [Queues.serialsSound_iff] at hq ⊢
  exact ⟨h.2 hq.1, fun i x hx => (h.1 i x hx).trans (hq.2 i x hx)⟩

section Parts
variable {q : Queues}

theorem Queues.within_bq {xs : List BlockEntry} (h : (xs.map BlockEntry.serial).Sublist (q.bq.map BlockEntry.serial)) :
    Queues.within { q with bq := xs } q := by
  refine ⟨fun i x _ => ?_, fun hn => ⟨fun h0 => hn.1 (h.mem h0), hn.2⟩⟩
  cases i with
  | block =>
    simp only [Queues.serials, List.count_append]
    exact Nat.add_le_add_right (h.count_le x) _
  | _ => exact le_rfl

theorem Queues.within_cq {xs : List CaseEntry} (h : (xs.map CaseEntry.serial).Sublist (q.cq.map CaseEntry.serial)) :
    Queues.within { q with cq := xs } q := by
  refine ⟨fun i x _ => ?_, fun hn => ⟨hn.1, fun h0 => hn.2.1 (h.mem h0), hn.2.2⟩⟩
  cases i with
  | caseItem => exact h.count_le x
  | _ => exact le_rfl

theorem Queues.within_jq {xs : List JacketEntry} (h : (xs.map JacketEntry.serial).Sublist (q.jq.map JacketEntry.serial)) :
    Queues.within { q with jq := xs } q := by
  refine ⟨fun i x _ => ?_, fun hn => ⟨hn.1, hn.2.1, fun h0 => hn.2.2 (h.mem h0)⟩⟩
  cases i with
  | jacket => exact h.count_le x
  | _ => exact le_rfl

/-- Books that move among TQ, PT and AQ, some of them leaving. -/
theorem Queues.within_books {tq aq : List BookRecord} {pt : PressTrain}
    (h : ∀ x, x ≠ 0 → (tq.map BookRecord.serial).count x + (pt.records.map BookRecord.serial).count x
        + (aq.map BookRecord.serial).count x
      ≤ (q.tq.map BookRecord.serial).count x + (q.pt.records.map BookRecord.serial).count x
        + (q.aq.map BookRecord.serial).count x) : Queues.within { q with tq := tq, pt := pt, aq := aq } q := by
  refine ⟨fun i x hx => ?_, id⟩
  cases i with
  | block =>
    have := h x hx
    simp only [Queues.serials, List.count_append]
    omega
  | _ => exact le_rfl

theorem Queues.within_tq {xs : List BookRecord} (h : (xs.map BookRecord.serial).Sublist (q.tq.map BookRecord.serial)) :
    Queues.within { q with tq := xs } q :=
  Queues.within_books fun x _ => by
    have := h.count_le x
    omega

theorem Queues.within_aq {xs : List BookRecord} (h : (xs.map BookRecord.serial).Sublist (q.aq.map BookRecord.serial)) :
    Queues.within { q with aq := xs } q :=
  Queues.within_books fun x _ => by
    have := h.count_le x
    omega

/-- The head of BQ goes on as a book of the same serial at the tail of TQ (R71). -/
theorem Queues.within_bqToTq {b : BlockEntry} {r : BookRecord} (h : q.bq.head? = some b) (hr : r.serial = b.serial) :
    Queues.within { q with bq := q.bq.tail, tq := q.tq ++ [r] } q := by
  have hs := serials_of_head (serial := BlockEntry.serial) h
  rw [List.map_append] at hs
  refine ⟨fun i x _ => ?_, fun hn => ⟨fun h0 => hn.1 (hs ▸ List.mem_append_right _ h0), hn.2⟩⟩
  cases i with
  | block =>
    simp only [Queues.serials, hs, List.map_append, List.map_cons, List.map_nil, hr, List.count_append]
    omega
  | _ => exact le_rfl

/-- A collection emptied. -/
theorem Queues.within_clear (c : Collection) : (q.clear c).within q := by
  cases c with
  | bq => exact Queues.within_bq (List.nil_sublist _)
  | cq => exact Queues.within_cq (List.nil_sublist _)
  | jq => exact Queues.within_jq (List.nil_sublist _)
  | tq => exact Queues.within_tq (List.nil_sublist _)
  | pt =>
    refine Queues.within_books (tq := q.tq) (pt := PressTrain.empty) (aq := q.aq) fun x _ => ?_
    rw [show PressTrain.empty.records = [] from rfl, List.map_nil, List.count_nil]
    omega
  | aq => exact Queues.within_aq (List.nil_sublist _)

end Parts

/-! ### Counts -/

/-- The counts of an entry of each collection are below their limits (R26, R64, R65, R69). -/
def BlockEntry.counted (l : Limits) (b : BlockEntry) : Prop :=
  b.wait.absent < l.casingWait ∧ b.wait.starved ≤ 255 ∧ b.fitFail < l.fitFail
    ∧ b.thickness ≤ 12000 ∧ (b.clamped = true → b.offCaliper = true) ∧ (b.title = none → b.offCaliper = false)

def CaseEntry.counted (l : Limits) (c : CaseEntry) : Prop :=
  c.wait.absent < l.casingWait ∧ c.wait.starved ≤ 255 ∧ c.key ≠ 0 ∧ c.spine ≤ 15000

def JacketEntry.counted (l : Limits) (j : JacketEntry) : Prop :=
  j.wait.absent < l.jacketWait ∧ j.wait.starved ≤ 255 ∧ j.key ≠ 0

def BookRecord.transferCounted (l : Limits) (r : BookRecord) : Prop := r.wait.absent < l.pressWait ∧ r.thickness ≤ 12000

def BookRecord.pressCounted (r : BookRecord) : Prop := r.thickness ≤ 12000

def BookRecord.arrivalCounted (l : Limits) (r : BookRecord) : Prop :=
  r.wait.absent < l.jacketWait ∧ r.wait.starved ≤ 255 ∧ r.thickness ≤ 12000

def Queues.countsSound (l : Limits) (q : Queues) : Prop :=
  (∀ b ∈ q.bq, b.counted l) ∧ (∀ c ∈ q.cq, c.counted l) ∧ (∀ j ∈ q.jq, j.counted l)
    ∧ (∀ r ∈ q.tq, r.transferCounted l) ∧ (∀ r ∈ q.pt.records, r.pressCounted) ∧ ∀ r ∈ q.aq, r.arrivalCounted l

/-- The invariant of the data over the collections, under limits `l`. -/
def Queues.sound (l : Limits) (q : Queues) : Prop := q.countsSound l ∧ q.serialsSound

theorem forall_mem_tail {α : Type} {P : α → Prop} {xs : List α} (h : ∀ x ∈ xs, P x) : ∀ x ∈ xs.tail, P x :=
  fun x hx => h x (List.mem_of_mem_tail hx)

theorem forall_mem_snoc {α : Type} {P : α → Prop} {xs : List α} {y : α} (h : ∀ x ∈ xs, P x) (hy : P y) :
    ∀ x ∈ xs ++ [y], P x := List.forall_mem_append.mpr ⟨h, List.forall_mem_singleton.mpr hy⟩

section Heads
variable {α : Type} {wait : α → Waiting} {setWait : Waiting → α → α} {P : α → Prop} {serial : α → Serial}

/-- A reconciliation leaves every entry's counts below their limits: the head's absences start again or stay below the
limit (R62, R64). -/
theorem reconcile_counts {limit : Nat} (flag : Bool) {xs : List α} (h : ∀ x ∈ xs, P x)
    (hset : ∀ n x, P x → n < limit → P (setWait { wait x with absent := n } x)) (hpos : 0 < limit) :
    ∀ x ∈ (reconcile wait setWait flag limit xs).2, P x := by
  cases xs with
  | nil => exact h
  | cons x xs =>
    obtain ⟨hx, hxs⟩ := List.forall_mem_cons.mp h
    rw [reconcile]
    dsimp only
    split_ifs with _ hlt
    · exact List.forall_mem_cons.mpr ⟨hset 0 x hx hpos, hxs⟩
    · exact List.forall_mem_cons.mpr ⟨hset _ x hx hlt, hxs⟩
    · exact hxs

/-- A starved head keeps its counts below their limits (R65). -/
theorem starveHead_counts (limit : Nat) {xs : List α} (h : ∀ x ∈ xs, P x)
    (hset : ∀ x, P x → P (setWait ((wait x).starve limit) x)) : ∀ x ∈ starveHead wait setWait limit xs, P x := by
  cases xs with
  | nil => exact h
  | cons x xs =>
    obtain ⟨hx, hxs⟩ := List.forall_mem_cons.mp h
    exact List.forall_mem_cons.mpr ⟨hset x hx, hxs⟩

/-- A reconciliation adds no serial. -/
theorem reconcile_sublist (hs : ∀ w x, serial (setWait w x) = serial x) (flag : Bool) (limit : Nat) (xs : List α) :
    ((reconcile wait setWait flag limit xs).2.map serial).Sublist (xs.map serial) := by
  rw [reconcile_serials hs flag limit xs, List.map_append]
  exact List.sublist_append_right ..

theorem starveHead_sublist (hs : ∀ w x, serial (setWait w x) = serial x) (limit : Nat) (xs : List α) :
    ((starveHead wait setWait limit xs).map serial).Sublist (xs.map serial) :=
  starveHead_serials hs limit xs ▸ List.Sublist.refl _

end Heads

theorem Waiting.starve_starved_le (w : Waiting) (limit : Nat) : (w.starve limit).starved ≤ 255 := Nat.min_le_left ..

section Entries
variable {l : Limits}

theorem BlockEntry.counted_absent {b : BlockEntry} (h : b.counted l) {n : Nat} (hn : n < l.casingWait) :
    (b.setWait { b.wait with absent := n }).counted l := ⟨hn, h.2⟩

theorem BlockEntry.counted_starve {b : BlockEntry} (h : b.counted l) (n : Nat) : (b.setWait (b.wait.starve n)).counted l :=
  ⟨h.1, b.wait.starve_starved_le n, h.2.2⟩

theorem CaseEntry.counted_absent {c : CaseEntry} (h : c.counted l) {n : Nat} (hn : n < l.casingWait) :
    (c.setWait { c.wait with absent := n }).counted l := ⟨hn, h.2⟩

theorem CaseEntry.counted_starve {c : CaseEntry} (h : c.counted l) (n : Nat) : (c.setWait (c.wait.starve n)).counted l :=
  ⟨h.1, c.wait.starve_starved_le n, h.2.2⟩

theorem JacketEntry.counted_absent {j : JacketEntry} (h : j.counted l) {n : Nat} (hn : n < l.jacketWait) :
    (j.setWait { j.wait with absent := n }).counted l := ⟨hn, h.2⟩

theorem JacketEntry.counted_starve {j : JacketEntry} (h : j.counted l) (n : Nat) :
    (j.setWait (j.wait.starve n)).counted l := ⟨h.1, j.wait.starve_starved_le n, h.2.2⟩

theorem BookRecord.transferCounted_absent {r : BookRecord} (h : r.transferCounted l) {n : Nat} (hn : n < l.pressWait) :
    (r.setWait { r.wait with absent := n }).transferCounted l := ⟨hn, h.2⟩

theorem BookRecord.arrivalCounted_absent {r : BookRecord} (h : r.arrivalCounted l) {n : Nat} (hn : n < l.jacketWait) :
    (r.setWait { r.wait with absent := n }).arrivalCounted l := ⟨hn, h.2⟩

theorem BookRecord.arrivalCounted_starve {r : BookRecord} (h : r.arrivalCounted l) (n : Nat) :
    (r.setWait (r.wait.starve n)).arrivalCounted l := ⟨h.1, r.wait.starve_starved_le n, h.2.2⟩

end Entries

/-! ### Collections that change -/

section Sound
variable {l : Limits} {q : Queues}

theorem Queues.sound_bq (h : q.sound l) {xs : List BlockEntry} (hc : ∀ b ∈ xs, b.counted l)
    (hs : (xs.map BlockEntry.serial).Sublist (q.bq.map BlockEntry.serial)) : Queues.sound l { q with bq := xs } :=
  ⟨⟨hc, h.1.2⟩, (Queues.within_bq hs).serialsSound h.2⟩

theorem Queues.sound_cq (h : q.sound l) {xs : List CaseEntry} (hc : ∀ c ∈ xs, c.counted l)
    (hs : (xs.map CaseEntry.serial).Sublist (q.cq.map CaseEntry.serial)) : Queues.sound l { q with cq := xs } :=
  ⟨⟨h.1.1, hc, h.1.2.2⟩, (Queues.within_cq hs).serialsSound h.2⟩

theorem Queues.sound_jq (h : q.sound l) {xs : List JacketEntry} (hc : ∀ j ∈ xs, j.counted l)
    (hs : (xs.map JacketEntry.serial).Sublist (q.jq.map JacketEntry.serial)) : Queues.sound l { q with jq := xs } := by
  obtain ⟨⟨hb, hcq, -, hrest⟩, hser⟩ := h
  exact ⟨⟨hb, hcq, hc, hrest⟩, (Queues.within_jq hs).serialsSound hser⟩

theorem Queues.sound_tq (h : q.sound l) {xs : List BookRecord} (hc : ∀ r ∈ xs, r.transferCounted l)
    (hs : (xs.map BookRecord.serial).Sublist (q.tq.map BookRecord.serial)) : Queues.sound l { q with tq := xs } := by
  obtain ⟨⟨hb, hcq, hj, -, hrest⟩, hser⟩ := h
  exact ⟨⟨hb, hcq, hj, hc, hrest⟩, (Queues.within_tq hs).serialsSound hser⟩

theorem Queues.sound_aq (h : q.sound l) {xs : List BookRecord} (hc : ∀ r ∈ xs, r.arrivalCounted l)
    (hs : (xs.map BookRecord.serial).Sublist (q.aq.map BookRecord.serial)) : Queues.sound l { q with aq := xs } := by
  obtain ⟨⟨hb, hcq, hj, ht, hp, -⟩, hser⟩ := h
  exact ⟨⟨hb, hcq, hj, ht, hp, hc⟩, (Queues.within_aq hs).serialsSound hser⟩

theorem map_tail_sublist {α β : Type} (f : α → β) (xs : List α) : (xs.tail.map f).Sublist (xs.map f) :=
  (List.tail_sublist xs).map f

theorem Queues.sound_bqTail (h : q.sound l) : Queues.sound l { q with bq := q.bq.tail } :=
  Queues.sound_bq h (forall_mem_tail h.1.1) (map_tail_sublist ..)

theorem Queues.sound_cqTail (h : q.sound l) : Queues.sound l { q with cq := q.cq.tail } :=
  Queues.sound_cq h (forall_mem_tail h.1.2.1) (map_tail_sublist ..)

theorem Queues.sound_jqTail (h : q.sound l) : Queues.sound l { q with jq := q.jq.tail } :=
  Queues.sound_jq h (forall_mem_tail h.1.2.2.1) (map_tail_sublist ..)

theorem Queues.sound_aqTail (h : q.sound l) : Queues.sound l { q with aq := q.aq.tail } :=
  Queues.sound_aq h (forall_mem_tail h.1.2.2.2.2.2) (map_tail_sublist ..)

theorem Queues.sound_clear (h : q.sound l) (c : Collection) : (q.clear c).sound l := by
  obtain ⟨⟨hb, hc, hj, ht, hp, ha⟩, hser⟩ := h
  refine ⟨?_, (Queues.within_clear c).serialsSound hser⟩
  cases c with
  | bq => exact ⟨List.forall_mem_nil _, hc, hj, ht, hp, ha⟩
  | cq => exact ⟨hb, List.forall_mem_nil _, hj, ht, hp, ha⟩
  | jq => exact ⟨hb, hc, List.forall_mem_nil _, ht, hp, ha⟩
  | tq => exact ⟨hb, hc, hj, List.forall_mem_nil _, hp, ha⟩
  | pt => exact ⟨hb, hc, hj, ht, List.forall_mem_nil _, ha⟩
  | aq => exact ⟨hb, hc, hj, ht, hp, List.forall_mem_nil _⟩

theorem Queues.empty_sound (l : Limits) : Queues.empty.sound l :=
  ⟨⟨List.forall_mem_nil _, List.forall_mem_nil _, List.forall_mem_nil _, List.forall_mem_nil _, List.forall_mem_nil _,
    List.forall_mem_nil _⟩, Queues.empty_serialsSound⟩

end Sound

end Sys2Proof.Machine
end

section
/-! SUPPORT. The invariant of the data through sightings and the three cycles. -/

namespace Sys2Proof.Machine

/-! ### The invariant is one of the holdings -/

def Holdings.sound (h : Holdings) : Prop :=
  h.titles.sound
    ∧ (h.ccu.record.inRange = true ∧ h.limits.inRange = true ∧ (∀ c ∈ h.comparators.list, c.sound)
      ∧ (1 ≤ h.ownNode.toNat ∧ h.ownNode.toNat ≤ 62) ∧ ∀ n ∈ h.lineMap.list, n.toNat ≤ 62)
    ∧ h.dose.sound ∧ h.queues.sound h.limits

theorem State.dataSound_iff (s : State) : s.dataSound ↔ s.holdings.sound := Iff.rfl

section Changes
variable {s t : State}

theorem State.dataSound_of_holdings (h : s.dataSound) (ht : t.holdings = s.holdings) : t.dataSound := by
  rw [State.dataSound_iff, ht]
  exact h

theorem State.dataSound_of_queues {q : Queues} (h : s.dataSound) (ht : t.holdings = { s.holdings with queues := q })
    (hq : q.sound s.limits) : t.dataSound := by
  rw [State.dataSound_iff, ht]
  exact ⟨h.1, h.2.1, h.2.2.1, hq⟩

theorem State.dataSound_of_titles {x : TitleTable} (h : s.dataSound) (ht : t.holdings = { s.holdings with titles := x })
    (hx : x.sound) : t.dataSound := by
  rw [State.dataSound_iff, ht]
  exact ⟨hx, h.2⟩

theorem State.dataSound_of_dose {u : DoseUnit} (h : s.dataSound) (ht : t.holdings = { s.holdings with dose := u })
    (hu : u.sound) : t.dataSound := by
  rw [State.dataSound_iff, ht]
  exact ⟨h.1, h.2.1, hu, h.2.2.2⟩

theorem State.dataSound_of_comparators {c : Table Comparator 4} (h : s.dataSound)
    (ht : t.holdings = { s.holdings with comparators := c }) (hc : ∀ i, (c.get i).sound) : t.dataSound := by
  rw [State.dataSound_iff, ht]
  obtain ⟨htit, ⟨hccu, hlim, -, hrest⟩, hqueues⟩ := h
  exact ⟨htit, ⟨hccu, hlim, Table.forall_mem_iff.mpr hc, hrest⟩, hqueues⟩

theorem State.queuesSound_of_dataSound (h : s.dataSound) : s.queues.sound s.limits := h.2.2.2

/-- The wait limits and the fit-fail limit are at least 1 (R61). -/
theorem State.limits_pos (h : s.dataSound) :
    0 < s.limits.casingWait ∧ 0 < s.limits.pressWait ∧ 0 < s.limits.jacketWait ∧ 0 < s.limits.fitFail := by
  obtain ⟨-, -, -, -, -, hc, hp, hj, hf, -⟩ := (Limits.inRange_iff _).mp h.2.1.2.1
  exact ⟨hc.1, hp.1, hj.1, hf.1⟩

end Changes

/-! ### Sightings -/

theorem correct_thickness_le (c : Calibration) (rt tr : Nat) : (correct c rt tr).thickness ≤ 12000 := by
  have hcast := correct_thickness_cast c rt tr
  omega

/-- The entry of a block sighting starts with counts 0 and the caliper's thickness (R26, R43). -/
theorem blockEntry_counted {s : State} (h : s.dataSound) (p : List Byte) : (blockEntry s p).counted s.limits := by
  obtain ⟨hwait, -, -, hfit⟩ := State.limits_pos h
  unfold blockEntry
  split
  · exact ⟨hwait, Nat.zero_le _, hfit, Nat.zero_le _, id, fun _ => rfl⟩
  · refine ⟨hwait, Nat.zero_le _, hfit, correct_thickness_le .., fun hc => ?_, fun hn => absurd hn (Option.some_ne_none _)⟩
    dsimp only at hc ⊢
    rw [Corrected.inTolerance, hc]
    rfl

/-- A serial that none of BQ, TQ, PT and AQ holds. -/
theorem Queues.count_eq_zero_of_holds {q : Queues} {x : Serial} (h : q.holds x = none) : (q.serials .block).count x = 0 := by
  classical
  have hnone : ¬ (∃ b ∈ q.bq, b.serial = x) ∧ ¬ (∃ r ∈ q.tq, r.serial = x) ∧ ¬ (∃ r ∈ q.pt.records, r.serial = x)
      ∧ ¬ ∃ r ∈ q.aq, r.serial = x := by
    rw [Queues.holds_eq] at h
    split_ifs at h with hb ht hp ha
    exact ⟨hb, ht, hp, ha⟩
  obtain ⟨hb, ht, hp, ha⟩ := hnone
  have absent {α : Type} {xs : List α} {f : α → Serial} (hx : ¬ ∃ y ∈ xs, f y = x) : (xs.map f).count x = 0 :=
    List.count_eq_zero_of_not_mem (mt List.mem_map.mp hx)
  simp only [Queues.serials, List.count_append, absent hb, absent ht, absent hp, absent ha]

/-- A serial of its own joins: nothing is held twice (R40, R41). -/
theorem Queues.serialsSound_joined {q r : Queues} {item : ItemType} {x : Serial} (h : q.serialsSound)
    (hx : (q.serials item).count x = 0) (hr : r.named)
    (hs : ∀ i y, (r.serials i).count y ≤ (q.serials i).count y + if i = item ∧ y = x then 1 else 0) :
    r.serialsSound := by
  rw [Queues.serialsSound_iff] at h ⊢
  refine ⟨hr, fun i y hy => ?_⟩
  have hjoin := hs i y
  split at hjoin
  · next hi =>
    rw [hi.1, hi.2, hx] at hjoin
    exact hi.1 ▸ hi.2 ▸ hjoin
  · exact hjoin.trans (h.2 i y hy)

theorem count_snoc_le (xs : List Serial) (x y : Serial) :
    (xs ++ [x]).count y ≤ xs.count y + if y = x then 1 else 0 := by
  rw [List.count_append, List.count_singleton]
  by_cases h : y = x
  · simp [h]
  · simp [h, Ne.symm h]

theorem zero_not_mem_snoc {α : Type} {f : α → Serial} {xs : List α} {y : α} (h : 0 ∉ xs.map f) (hy : f y ≠ 0) :
    0 ∉ (xs ++ [y]).map f := by
  rw [List.map_append, List.mem_append, not_or]
  exact ⟨h, fun hm => hy (List.mem_singleton.mp hm).symm⟩

section Joins
variable {s : State}

theorem Queues.sound_bqJoined (h : s.dataSound) {b : BlockEntry} (hb : b.counted s.limits) (h0 : b.serial ≠ 0)
    (hheld : s.queues.holds b.serial = none) : Queues.sound s.limits { s.queues with bq := s.queues.bq ++ [b] } := by
  obtain ⟨⟨hbq, hrest⟩, hser⟩ := State.queuesSound_of_dataSound h
  obtain ⟨hn, -⟩ := (Queues.serialsSound_iff _).mp hser
  refine ⟨⟨forall_mem_snoc hbq hb, hrest⟩,
    Queues.serialsSound_joined (item := .block) hser (Queues.count_eq_zero_of_holds hheld)
      ⟨zero_not_mem_snoc hn.1 h0, hn.2⟩ fun i y => ?_⟩
  cases i with
  | block =>
    have hjoin := count_snoc_le (s.queues.bq.map BlockEntry.serial) b.serial y
    simp only [Queues.serials, List.map_append, List.map_cons, List.map_nil, List.count_append, true_and] at hjoin ⊢
    omega
  | _ => exact Nat.le_add_right ..

theorem Queues.sound_cqJoined (h : s.dataSound) {c : CaseEntry} (hc : c.counted s.limits) (h0 : c.serial ≠ 0)
    (hheld : ¬ ∃ x ∈ s.queues.cq, x.serial = c.serial) :
    Queues.sound s.limits { s.queues with cq := s.queues.cq ++ [c] } := by
  obtain ⟨⟨hbq, hcq, hrest⟩, hser⟩ := State.queuesSound_of_dataSound h
  obtain ⟨hn, -⟩ := (Queues.serialsSound_iff _).mp hser
  refine ⟨⟨hbq, forall_mem_snoc hcq hc, hrest⟩, Queues.serialsSound_joined (item := .caseItem) hser
    (List.count_eq_zero_of_not_mem (mt List.mem_map.mp hheld)) ⟨hn.1, zero_not_mem_snoc hn.2.1 h0, hn.2.2⟩
    fun i y => ?_⟩
  cases i with
  | caseItem =>
    have hjoin := count_snoc_le (s.queues.cq.map CaseEntry.serial) c.serial y
    simpa only [Queues.serials, List.map_append, List.map_cons, List.map_nil, true_and] using hjoin
  | _ => exact Nat.le_add_right ..

theorem Queues.sound_jqJoined (h : s.dataSound) {j : JacketEntry} (hj : j.counted s.limits) (h0 : j.serial ≠ 0)
    (hheld : ¬ ∃ x ∈ s.queues.jq, x.serial = j.serial) :
    Queues.sound s.limits { s.queues with jq := s.queues.jq ++ [j] } := by
  obtain ⟨⟨hbq, hcq, hjq, hrest⟩, hser⟩ := State.queuesSound_of_dataSound h
  obtain ⟨hn, -⟩ := (Queues.serialsSound_iff _).mp hser
  refine ⟨⟨hbq, hcq, forall_mem_snoc hjq hj, hrest⟩, Queues.serialsSound_joined (item := .jacket) hser
    (List.count_eq_zero_of_not_mem (mt List.mem_map.mp hheld)) ⟨hn.1, hn.2.1, zero_not_mem_snoc hn.2.2 h0⟩
    fun i y => ?_⟩
  cases i with
  | jacket =>
    have hjoin := count_snoc_le (s.queues.jq.map JacketEntry.serial) j.serial y
    simpa only [Queues.serials, List.map_append, List.map_cons, List.map_nil, true_and] using hjoin
  | _ => exact Nat.le_add_right ..

end Joins

theorem enqueue_holdings (q : Queues) (item : ItemType) (e : Ev) :
    (enqueue q item e).s.holdings = { e.s.holdings with queues := q } := rfl

theorem sightBlock_sound {p : List Byte} {e : Ev} (h : e.s.dataSound) (h0 : serialAt p 1 ≠ 0) :
    (sightBlock p e).s.dataSound := by
  rw [sightBlock]
  split
  · split
    · exact h
    · exact State.dataSound_of_holdings h (logAlert_holdings ..)
  · next hheld =>
    split
    · have joined := Queues.sound_bqJoined h (blockEntry_counted h p)
      have hserial : (blockEntry e.s p).serial = serialAt p 1 := by
        unfold blockEntry
        split <;> rfl
      rw [hserial] at joined
      refine State.dataSound_of_queues h ?_ (joined h0 hheld)
      rw [computeLevels_holdings, enqueue_holdings, blockAlert_holdings]
    · exact State.dataSound_of_holdings h (sightOverflow_holdings ..)

theorem sightCase_sound {p : List Byte} {e : Ev} (h : e.s.dataSound) (h0 : serialAt p 1 ≠ 0) (hkey : wordAt p 5 ≠ 0)
    (hspine : natAt2 p 7 ≤ 15000) : (sightCase p e).s.dataSound := by
  rw [sightCase]
  split
  · split
    · exact h
    · exact State.dataSound_of_holdings h (logAlert_holdings ..)
  · next hheld =>
    split
    · refine State.dataSound_of_queues h (computeLevels_holdings ..)
        (Queues.sound_cqJoined h ⟨(State.limits_pos h).1, Nat.zero_le _, hkey, hspine⟩ h0 (mt any_serial_iff.mpr hheld))
    · exact State.dataSound_of_holdings h (sightOverflow_holdings ..)

theorem sightJacket_sound {p : List Byte} {e : Ev} (h : e.s.dataSound) (h0 : serialAt p 1 ≠ 0) (hkey : wordAt p 5 ≠ 0) :
    (sightJacket p e).s.dataSound := by
  rw [sightJacket]
  split
  · split
    · exact h
    · exact State.dataSound_of_holdings h (logAlert_holdings ..)
  · next hheld =>
    split
    · obtain ⟨-, -, hwait, -⟩ := State.limits_pos h
      exact State.dataSound_of_queues h (computeLevels_holdings ..)
        (Queues.sound_jqJoined h ⟨hwait, Nat.zero_le _, hkey⟩ h0 (mt any_serial_iff.mpr hheld))
    · exact State.dataSound_of_holdings h (sightOverflow_holdings ..)

/-- What a payload of right form holds (R38). -/
theorem fields_of_badSighting {p : List Byte} (h : badSighting p = none) :
    serialAt p 1 ≠ 0 ∧ (natAt1 p 0 ≠ 1 → wordAt p 5 ≠ 0) ∧ (natAt1 p 0 = 2 → natAt2 p 7 ≤ 15000) := by
  unfold badSighting at h
  split_ifs at h with hrole hlen hserial hkey hspine
  exact ⟨hserial, fun h1 h0 => hkey ⟨h1, h0⟩, fun h2 => Nat.not_lt.mp fun hlt => hspine ⟨h2, hlt⟩⟩

theorem sight_sound (src : Node) (p : List Byte) {e : Ev} (h : e.s.dataSound) : (sight src p e).s.dataSound := by
  rw [sight]
  split
  · exact h
  · split
    · exact State.dataSound_of_holdings h (logAlert_holdings ..)
    · next hform =>
      obtain ⟨h0, hkey, hspine⟩ := fields_of_badSighting hform
      split
      · split_ifs with h1 h2
        · exact sightBlock_sound h h0
        · exact sightCase_sound h h0 (hkey h1) (hspine h2)
        · exact sightJacket_sound h h0 (hkey h1)
      · exact State.dataSound_of_holdings h (logAlert_holdings ..)

/-! ### The end of a cycle -/

theorem purgeAll_sound (cs : List Collection) {e : Ev} (h : e.s.dataSound) : (purgeAll cs e).2.s.dataSound := by
  induction cs generalizing e with
  | nil => exact h
  | cons c cs ih =>
    exact ih (State.dataSound_of_queues (t := (purgeOne c e).2.s) h rfl
      (Queues.sound_clear (State.queuesSound_of_dataSound h) c))

theorem checkDrain_sound {e : Ev} (h : e.s.dataSound) : (checkDrain e).s.dataSound := by
  unfold checkDrain
  split
  · exact State.dataSound_of_holdings (purgeAll_sound [.cq, .jq] h) (handTallies_holdings ..)
  · exact h

theorem endCycle_sound {before : Queues} {removed : Bool} {order : Message} {ys : List Tally} {e : Ev}
    (h : e.s.dataSound) : (endCycle before removed order ys e).s.dataSound := by
  have handed : (handTallies ys (hand order (countTallies ys e))).s.dataSound :=
    State.dataSound_of_holdings h ((handTallies_holdings ..).trans (hand_holdings ..))
  refine State.dataSound_of_holdings ?_ (computeLevels_holdings ..)
  split
  · exact checkDrain_sound handed
  · exact handed

/-! ### The casing cycle -/

theorem reconcileBq_sound (flag : Bool) {e : Ev} (h : e.s.dataSound) : (reconcileBq flag e).2.s.dataSound := by
  have hq := State.queuesSound_of_dataSound h
  exact State.dataSound_of_queues h (presenceAlert_holdings ..)
    (Queues.sound_bq hq (reconcile_counts flag hq.1.1 (fun _ _ hx hn => BlockEntry.counted_absent hx hn)
      (State.limits_pos h).1) (reconcile_sublist BlockEntry.serial_setWait ..))

theorem reconcileCq_sound (flag : Bool) {e : Ev} (h : e.s.dataSound) : (reconcileCq flag e).2.s.dataSound := by
  have hq := State.queuesSound_of_dataSound h
  exact State.dataSound_of_queues h (presenceAlert_holdings ..)
    (Queues.sound_cq hq (reconcile_counts flag hq.1.2.1 (fun _ _ hx hn => CaseEntry.counted_absent hx hn)
      (State.limits_pos h).1) (reconcile_sublist CaseEntry.serial_setWait ..))

/-- A misfit that is held is one below the fit-fail limit (R69). -/
def CasingCase.belowLimit (l : Limits) : CasingCase → Prop
  | .misfit b _ => b.fitFail + 1 < l.fitFail
  | _ => True

theorem casingCase_belowLimit (l : Limits) (behind : List CaseEntry) (b : Option BlockEntry) (c : Option CaseEntry) :
    (casingCase l behind b c).belowLimit l := by
  cases b with
  | none => cases c <;> trivial
  | some b =>
    cases c with
    | none => trivial
    | some c =>
      rw [casingCase]
      split
      · trivial
      · split_ifs with _ _ _ _ hlt
        exacts [trivial, trivial, trivial, trivial, hlt, trivial]

/-- A book record joins TQ, or leaves the holdings alone (R72). -/
theorem joinTransfer_sound {r : BookRecord} {e : Ev} (h : e.s.dataSound)
    (hq : Queues.sound e.s.limits { e.s.queues with tq := e.s.queues.tq ++ [r] }) : (joinTransfer r e).2.s.dataSound := by
  unfold joinTransfer
  split
  · exact State.dataSound_of_queues (s := e.s) h rfl hq
  · exact State.dataSound_of_holdings h (raiseCause_holdings ..)

theorem casingMatch_sound {b : BlockEntry} {c : CaseEntry} {e : Ev} (h : e.s.dataSound)
    (hb : e.s.queues.bq.head? = some b) (d : TitleData) : (casingMatch b c d e).2.s.dataSound := by
  have hq := State.queuesSound_of_dataSound h
  have hcased := Queues.sound_cqTail (Queues.sound_bqTail hq)
  have hdosed : Holdings.sound { e.s.holdings with
      dose := (e.s.dose.dose d).unit
      queues := { e.s.queues with bq := e.s.queues.bq.tail, cq := e.s.queues.cq.tail } } :=
    ⟨h.1, h.2.1, DoseUnit.dose_sound h.2.2.1 d, hcased⟩
  have hheld : b ∈ e.s.queues.bq := List.mem_of_mem_head? hb
  have hthick : b.thickness ≤ 12000 := (hq.1.1 b hheld).2.2.2.1
  refine joinTransfer_sound (e := doseAlert _ _ _ (doseAlert _ _ _ _)) ?_ ?_
  · rw [State.dataSound_iff, doseAlert_holdings, doseAlert_holdings]
    exact hdosed
  · have hlimits (b₁ b₂ : Bool) (i j : Fin 64) (x : Ev) :
        (doseAlert b₁ i b (doseAlert b₂ j b x)).s.limits = x.s.limits
          ∧ (doseAlert b₁ i b (doseAlert b₂ j b x)).s.queues = x.s.queues := by
      cases b₁ <;> cases b₂ <;> exact ⟨rfl, rfl⟩
    rw [(hlimits ..).1, (hlimits ..).2]
    obtain ⟨⟨hbq, hcq, hjq, htq, hrest⟩, -⟩ := hcased
    obtain ⟨-, hwait, -⟩ := State.limits_pos h
    have moved (r : BookRecord) (hr : r.serial = b.serial) : Queues.serialsSound
        { e.s.queues with bq := e.s.queues.bq.tail, cq := e.s.queues.cq.tail, tq := e.s.queues.tq ++ [r] } :=
      ((Queues.within_cq (q := { e.s.queues with bq := e.s.queues.bq.tail, tq := e.s.queues.tq ++ [r] })
        (map_tail_sublist ..)).trans (Queues.within_bqToTq hb hr)).serialsSound hq.2
    exact ⟨⟨hbq, hcq, hjq, forall_mem_snoc htq ⟨hwait, hthick⟩, hrest⟩, moved _ rfl⟩

theorem casingApply_sound {d : CasingCase} {e : Ev} (h : e.s.dataSound) (hd : d.ofHeads e.s.queues)
    (hl : d.belowLimit e.s.limits) : (casingApply e.s.limits d e).2.s.dataSound := by
  have hq := State.queuesSound_of_dataSound h
  cases d with
  | flagged b => exact State.dataSound_of_queues (s := e.s) h rfl (Queues.sound_bqTail hq)
  | wrongCase c => exact State.dataSound_of_queues (s := e.s) h rfl (Queues.sound_cqTail hq)
  | noCase b => exact State.dataSound_of_queues (s := e.s) h rfl (Queues.sound_bqTail hq)
  | misfit b c =>
    obtain ⟨hb, -⟩ := hd
    obtain ⟨habs, hst, -, hrest⟩ := hq.1.1 b (List.mem_of_mem_head? hb)
    have hagain : Queues.sound e.s.limits
        { e.s.queues with bq := { b with fitFail := b.fitFail + 1 } :: e.s.queues.bq.tail } := by
      refine Queues.sound_bq hq (List.forall_mem_cons.mpr ⟨⟨habs, hst, hl, hrest⟩, forall_mem_tail hq.1.1⟩) ?_
      rw [serials_of_head (serial := BlockEntry.serial) (x := b) hb]
      exact List.Sublist.refl _
    exact State.dataSound_of_queues (s := e.s) h rfl (Queues.sound_cqTail hagain)
  | misfitLimit b c =>
    exact State.dataSound_of_queues (s := e.s) h rfl (Queues.sound_cqTail (Queues.sound_bqTail hq))
  | matched b c t => exact casingMatch_sound h hd.1 t
  | blockWaits b =>
    exact State.dataSound_of_queues h (starveAlert_holdings ..)
      (Queues.sound_bq hq (starveHead_counts _ hq.1.1 fun _ hx => BlockEntry.counted_starve hx _)
        (starveHead_sublist BlockEntry.serial_setWait ..))
  | caseWaits c =>
    exact State.dataSound_of_queues h (starveAlert_holdings ..)
      (Queues.sound_cq hq (starveHead_counts _ hq.1.2.1 fun _ hx => CaseEntry.counted_starve hx _)
        (starveHead_sublist CaseEntry.serial_setWait ..))
  | neither => exact h

theorem continuity_sound (m : Merge) (n : Word) {e : Ev} (h : e.s.dataSound) : (continuity m n e).s.dataSound :=
  State.dataSound_of_holdings h (continuity_holdings ..)

theorem casingCycle_sound (n : Word) (block caseFlag : Bool) {e : Ev} (h : e.s.dataSound) :
    (casingCycle n block caseFlag e).s.dataSound := by
  have hstart : (continuity .casing n (advanceStamp e)).s.dataSound :=
    continuity_sound .casing n (State.dataSound_of_holdings h (advanceStamp_holdings e))
  exact endCycle_sound (casingApply_sound (reconcileCq_sound caseFlag (reconcileBq_sound block hstart))
    (casingCase_ofHeads _ _ (fun b hb => (congrArg List.head? (reconcileCq_bq caseFlag _)).trans (reconcileBq_head hb))
      fun c hc => reconcileCq_head hc) (casingCase_belowLimit ..))

end Sys2Proof.Machine
end

section
/-! SUPPORT. The invariant of the data through the press index, the jacket cycle, readings and marks. -/

namespace Sys2Proof.Machine

/-! ### The press train -/

theorem PressTrain.forall_records_iff {P : BookRecord → Prop} (t : PressTrain) :
    (∀ r ∈ t.records, P r) ↔ (∀ r ∈ t.p1, P r) ∧ (∀ r ∈ t.p2, P r) ∧ (∀ r ∈ t.p3, P r) ∧ (∀ r ∈ t.p4, P r)
      ∧ (∀ r ∈ t.p5, P r) ∧ ∀ r ∈ t.p6, P r := by
  simp [PressTrain.records, PressTrain.positions, or_imp, forall_and, eq_comm]

/-- How often a press position holds a serial: once or not at all. -/
def heldAt (x : Serial) (p : Option BookRecord) : Nat := (p.toList.map BookRecord.serial).count x

theorem PressTrain.count_records (t : PressTrain) (x : Serial) :
    (t.records.map BookRecord.serial).count x
      = heldAt x t.p1 + heldAt x t.p2 + heldAt x t.p3 + heldAt x t.p4 + heldAt x t.p5 + heldAt x t.p6 := by
  simp only [PressTrain.records, PressTrain.positions, List.filterMap_eq_flatMap_toList, List.flatMap_cons,
    List.flatMap_nil, id, List.map_append, List.count_append, List.map_nil, List.count_nil, Nat.add_zero, Nat.add_assoc,
    heldAt]

theorem heldAt_markPosition (x : Serial) (s : State) (entry : Profile → ProfileEntry) (b : IronBank)
    (p : Option BookRecord) : heldAt x (markPosition s entry b p) = heldAt x p := by
  cases p with
  | none => rfl
  | some r =>
    rw [markPosition]
    split <;> rfl

theorem pressCounted_markPosition {s : State} {entry : Profile → ProfileEntry} {b : IronBank} {p : Option BookRecord}
    (h : ∀ r ∈ p, r.pressCounted) : ∀ r ∈ markPosition s entry b p, r.pressCounted := by
  cases p with
  | none => exact h
  | some r =>
    have hr := h r rfl
    intro y hy
    obtain rfl := Option.some.inj hy
    split <;> exact hr

/-! ### The press index -/

theorem reconcileTq_sound (flag : Bool) {e : Ev} (h : e.s.dataSound) : (reconcileTq flag e).2.s.dataSound := by
  have hq := State.queuesSound_of_dataSound h
  exact State.dataSound_of_queues h (presenceAlert_holdings ..)
    (Queues.sound_tq hq (reconcile_counts flag hq.1.2.2.2.1 (fun _ _ hx hn => BookRecord.transferCounted_absent hx hn)
      (State.limits_pos h).2.1) (reconcile_sublist BookRecord.serial_setWait ..))

theorem outfeed_sound {e : Ev} (h : e.s.dataSound) : (outfeed e).2.s.dataSound := by
  obtain ⟨⟨hbq, hcq, hjq, htq, hpt, haq⟩, hser⟩ := State.queuesSound_of_dataSound h
  obtain ⟨h1, h2, h3, h4, h5, h6⟩ := (PressTrain.forall_records_iff _).mp hpt
  obtain ⟨-, -, hwait, -⟩ := State.limits_pos h
  have emptied : ∀ r ∈ ({ e.s.queues.pt with p6 := none } : PressTrain).records, r.pressCounted :=
    (PressTrain.forall_records_iff _).mpr ⟨h1, h2, h3, h4, h5, fun _ hr => absurd hr (Option.not_mem_none _)⟩
  unfold outfeed
  split
  · exact h
  · next r hr =>
    have hheld (x : Serial) : heldAt x (some r) = [r.serial].count x := rfl
    have houtfed (x : Serial) : heldAt x e.s.queues.pt.p6 = [r.serial].count x := hr ▸ hheld x
    have hgone (x : Serial) : heldAt x none = 0 := rfl
    dsimp only
    split
    · refine State.dataSound_of_queues (s := e.s) h rfl (q := { e.s.queues with
        pt := { e.s.queues.pt with p6 := none }, aq := e.s.queues.aq ++ [r.setWait Waiting.fresh] })
        ⟨⟨hbq, hcq, hjq, htq, emptied, forall_mem_snoc haq ⟨hwait, Nat.zero_le _, h6 r hr⟩⟩, ?_⟩
      refine (Queues.within_books (tq := e.s.queues.tq) fun x _ => ?_).serialsSound hser
      rw [PressTrain.count_records, PressTrain.count_records, List.map_append, List.count_append, houtfed, hgone,
        List.map_singleton, BookRecord.serial_setWait]
      dsimp only
      omega
    · refine State.dataSound_of_queues (s := e.s) (q := { e.s.queues with pt := { e.s.queues.pt with p6 := none } }) h
        (raiseCause_holdings ..) ⟨⟨hbq, hcq, hjq, htq, emptied, haq⟩, ?_⟩
      refine (Queues.within_books (tq := e.s.queues.tq) (aq := e.s.queues.aq) fun x _ => ?_).serialsSound hser
      rw [PressTrain.count_records, PressTrain.count_records, hgone]
      dsimp only
      omega

/-- What enters position 1 leaves TQ, or has serial 0 (R84, R86). -/
theorem heldAt_infeed_le {p : Presence BookRecord} {tq : List BookRecord} {x : Serial} (hx : x ≠ 0)
    (h : ∀ r, p.head = some r → tq.head? = some r) :
    heldAt x (infeed p) + ((if p.head.isSome then tq.tail else tq).map BookRecord.serial).count x
      ≤ (tq.map BookRecord.serial).count x := by
  cases p with
  | available r =>
    rw [serials_of_head (serial := BookRecord.serial) (h r rfl), List.map_append, List.count_append]
    exact le_rfl
  | phantom =>
    have hzero : heldAt x (infeed Presence.phantom) = 0 :=
      List.count_eq_zero_of_not_mem fun hm => hx (List.mem_singleton.mp hm)
    rw [hzero]
    exact (Nat.zero_add _).le
  | absent r => exact (Nat.zero_add _).le
  | lost r => exact (Nat.zero_add _).le
  | nothing => exact (Nat.zero_add _).le

theorem pressCounted_infeed {p : Presence BookRecord} {tq : List BookRecord} {l : Limits}
    (h : ∀ r, p.head = some r → tq.head? = some r) (htq : ∀ r ∈ tq, r.transferCounted l) :
    ∀ r ∈ infeed p, r.pressCounted := by
  intro r hr
  cases p with
  | available y =>
    obtain rfl := Option.some.inj hr
    exact (htq _ (List.mem_of_mem_head? (h _ rfl))).2
  | phantom =>
    obtain rfl := Option.some.inj hr
    exact Nat.zero_le _
  | absent y => cases hr
  | lost y => cases hr
  | nothing => cases hr

theorem shift_sound {p : Presence BookRecord} {e : Ev} (h : e.s.dataSound) (h6 : e.s.queues.pt.p6 = none)
    (hp : ∀ r, p.head = some r → e.s.queues.tq.head? = some r) : (shift p e).s.dataSound := by
  obtain ⟨⟨hbq, hcq, hjq, htq, hpt, haq⟩, hser⟩ := State.queuesSound_of_dataSound h
  obtain ⟨h1, h2, h3, h4, h5, -⟩ := (PressTrain.forall_records_iff _).mp hpt
  have moved : (shift p e).s.holdings = { e.s.holdings with queues := { e.s.queues with
      tq := if p.head.isSome then e.s.queues.tq.tail else e.s.queues.tq
      pt := ⟨infeed p, e.s.queues.pt.p1, e.s.queues.pt.p2, e.s.queues.pt.p3, e.s.queues.pt.p4, e.s.queues.pt.p5⟩ } } := by
    rw [shift]
    split <;> rfl
  refine State.dataSound_of_queues h moved ⟨⟨hbq, hcq, hjq, ?_, ?_, haq⟩, ?_⟩
  · split
    · exact forall_mem_tail htq
    · exact htq
  · exact (PressTrain.forall_records_iff _).mpr ⟨pressCounted_infeed hp htq, h1, h2, h3, h4, h5⟩
  · refine (Queues.within_books (aq := e.s.queues.aq) fun x hx => ?_).serialsSound hser
    have entered := heldAt_infeed_le hx hp
    rw [PressTrain.count_records, PressTrain.count_records, h6]
    dsimp only
    omega

theorem markSuspects_sound {e : Ev} (h : e.s.dataSound) : (markSuspects e).s.dataSound := by
  obtain ⟨⟨hbq, hcq, hjq, htq, hpt, haq⟩, hser⟩ := State.queuesSound_of_dataSound h
  obtain ⟨h1, h2, h3, h4, h5, h6⟩ := (PressTrain.forall_records_iff _).mp hpt
  refine State.dataSound_of_queues (s := e.s) h rfl ⟨⟨hbq, hcq, hjq, htq, ?_, haq⟩, ?_⟩
  · exact (PressTrain.forall_records_iff _).mpr ⟨pressCounted_markPosition h1, pressCounted_markPosition h2,
      pressCounted_markPosition h3, pressCounted_markPosition h4, pressCounted_markPosition h5,
      pressCounted_markPosition h6⟩
  · refine (Queues.within_books (tq := e.s.queues.tq) (aq := e.s.queues.aq) fun x _ => ?_).serialsSound hser
    simp only [PressTrain.count_records, heldAt_markPosition]
    exact le_rfl

theorem pressIndex_sound (n : Word) (flag : Bool) {e : Ev} (h : e.s.dataSound) : (pressIndex n flag e).s.dataSound := by
  have reconciled := reconcileTq_sound flag (continuity_sound .press n h)
  obtain ⟨h6, htq⟩ := outfeed_leaves (reconcileTq flag (continuity .press n e)).2
  have shifted := shift_sound (outfeed_sound reconciled) h6 fun r hr =>
    (congrArg List.head? htq).trans (reconcileTq_head hr)
  exact endCycle_sound (State.dataSound_of_holdings (markSuspects_sound shifted) (advanceStale_holdings _))

/-! ### The jacket cycle -/

theorem reconcileAq_sound (flag : Bool) {e : Ev} (h : e.s.dataSound) : (reconcileAq flag e).2.s.dataSound := by
  have hq := State.queuesSound_of_dataSound h
  exact State.dataSound_of_queues h (presenceAlert_holdings ..)
    (Queues.sound_aq hq (reconcile_counts flag hq.1.2.2.2.2.2 (fun _ _ hx hn => BookRecord.arrivalCounted_absent hx hn)
      (State.limits_pos h).2.2.1) (reconcile_sublist BookRecord.serial_setWait ..))

theorem reconcileJq_sound (flag : Bool) {e : Ev} (h : e.s.dataSound) : (reconcileJq flag e).2.s.dataSound := by
  have hq := State.queuesSound_of_dataSound h
  exact State.dataSound_of_queues h (presenceAlert_holdings ..)
    (Queues.sound_jq hq (reconcile_counts flag hq.1.2.2.1 (fun _ _ hx hn => JacketEntry.counted_absent hx hn)
      (State.limits_pos h).2.2.1) (reconcile_sublist JacketEntry.serial_setWait ..))

theorem routeBook_sound (k : BookRecord) (without : Bool) {e : Ev} (h : e.s.dataSound) :
    (routeBook k without e).2.s.dataSound := by
  unfold routeBook
  split_ifs
  · exact h
  · exact h
  · exact State.dataSound_of_titles (s := e.s) h rfl (TitleTable.proofLookup_sound h.1 k.key)

theorem passBook_sound (k : BookRecord) (without : Bool) (action : JacketAction) (more : List Tally) {e : Ev}
    (h : e.s.dataSound) : (passBook k without action more e).2.s.dataSound :=
  routeBook_sound k without (State.dataSound_of_queues (s := e.s) (t := (setAq e.s.queues.aq.tail e).s) h rfl
    (Queues.sound_aqTail (State.queuesSound_of_dataSound h)))

theorem jacketApply_sound (l : Limits) (d : JacketCase) {e : Ev} (h : e.s.dataSound) :
    (jacketApply l d e).2.s.dataSound := by
  have hq := State.queuesSound_of_dataSound h
  have ejected : (setJq e.s.queues.jq.tail e).s.dataSound :=
    State.dataSound_of_queues (s := e.s) h rfl (Queues.sound_jqTail hq)
  cases d with
  | unjacketed k => exact passBook_sound _ _ _ _ h
  | wrongJacket j => exact ejected
  | noJacket k => exact passBook_sound _ _ _ _ h
  | apply k j => exact passBook_sound _ _ _ _ ejected
  | bookWaits k =>
    exact State.dataSound_of_queues h (starveAlert_holdings ..)
      (Queues.sound_aq hq (starveHead_counts _ hq.1.2.2.2.2.2 fun _ hx => BookRecord.arrivalCounted_starve hx _)
        (starveHead_sublist BookRecord.serial_setWait ..))
  | jacketWaits j =>
    exact State.dataSound_of_queues h (starveAlert_holdings ..)
      (Queues.sound_jq hq (starveHead_counts _ hq.1.2.2.1 fun _ hx => JacketEntry.counted_starve hx _)
        (starveHead_sublist JacketEntry.serial_setWait ..))
  | neither => exact h

theorem jacketCycle_sound (n : Word) (book jacketFlag : Bool) {e : Ev} (h : e.s.dataSound) :
    (jacketCycle n book jacketFlag e).s.dataSound :=
  endCycle_sound (jacketApply_sound _ _ (reconcileJq_sound jacketFlag (reconcileAq_sound book
    (continuity_sound .jacketer n h))))

theorem cycle_sound (src : Node) (p : List Byte) {e : Ev} (h : e.s.dataSound) : (cycle src p e).s.dataSound := by
  rw [cycle]
  split
  · exact h
  · split
    · exact State.dataSound_of_holdings h (logAlert_holdings ..)
    case h_2 m _ =>
      split
      · cases m with
        | casing => exact casingCycle_sound _ _ _ h
        | press => exact pressIndex_sound _ _ h
        | jacketer => exact jacketCycle_sound _ _ _ h
      · exact State.dataSound_of_holdings h (logAlert_holdings ..)

/-! ### Readings and marks -/

theorem senseComparator_sound (i : Fin 4) (v : Int) {e : Ev} (h : e.s.dataSound) :
    (senseComparator i v e).s.dataSound := by
  have hc := Table.forall_mem_iff.mp h.2.1.2.2.1
  have moved : (senseComparator i v e).s.holdings
      = { e.s.holdings with comparators := e.s.iron.comparators.set i ((e.s.iron.comparators.get i).read v) } := by
    unfold senseComparator
    dsimp only
    split <;> rfl
  exact State.dataSound_of_comparators h moved (Table.forall_set hc (Comparator.read_sound (hc i) v) i)

theorem sense_sound (src : Node) (p : List Byte) {e : Ev} (h : e.s.dataSound) : (sense src p e).s.dataSound := by
  have all (is : List (Fin 4)) (v : Int) {e : Ev} (h : e.s.dataSound) : (senseComparators is v e).s.dataSound := by
    induction is generalizing e with
    | nil => exact h
    | cons i is ih => exact ih (senseComparator_sound i v h)
  have rejected : (senseRejected src e).s.dataSound := by
    unfold senseRejected
    split
    · exact h
    · exact State.dataSound_of_holdings h (logAlert_holdings ..)
  unfold sense
  split
  · exact rejected
  case h_2 b _ =>
    split
    · refine State.dataSound_of_holdings (all (comparatorsOf b) (clampInt (-400) 3000 (intAt2 p 1)) h) ?_
      cases b <;> rfl
    · exact rejected

theorem mark_sound (src : Node) (p : List Byte) {e : Ev} (h : e.s.dataSound) : (mark src p e).s.dataSound := by
  have noted : TitleTable.sound { e.s.titles with lastMark := wordAt p 0 } := TitleTable.sound_of_eq h.1 rfl rfl rfl rfl
  have cleared {x : TitleTable} (hx : x.sound) :
      Holdings.sound { e.s.holdings with titles := x, dose := e.s.dose.clearCarries } :=
    ⟨hx, h.2.1, DoseUnit.clearCarries_sound h.2.2.1, h.2.2.2⟩
  by_cases hform : p.length = 2 ∧ src = 0
  · obtain ⟨hlen, hsrc⟩ := hform
    cases harmed : e.s.titles.armed with
    | false =>
      rw [mark_unarmed hlen hsrc harmed]
      exact cleared noted
    | true =>
      rw [mark_armed hlen hsrc harmed]
      exact cleared (TitleTable.swap_sound noted)
  · rw [mark, if_neg hform]
    exact h

end Sys2Proof.Machine
end

section
/-! SUPPORT. The invariant of the data over every command: requests, writes, reception and power-on. -/

namespace Sys2Proof.Machine

/-! ### Requests of Run Control and of the Title Table -/

theorem ctrlStart_sound (tag : Byte) {e : Ev} (h : e.s.dataSound) : (ctrlStart tag e).s.dataSound := by
  have started : (startRun e).s.dataSound :=
    (State.dataSound_iff _).mpr ⟨TitleTable.loadProofs_sound h.1, h.2.1, DoseUnit.clearCarries_sound h.2.2.1, h.2.2.2⟩
  unfold ctrlStart
  split
  · exact State.dataSound_of_holdings h (answer_holdings ..)
  · split
    · exact State.dataSound_of_holdings h (answer_holdings ..)
    · exact State.dataSound_of_holdings started ((answer_holdings ..).trans (formComputed_holdings _))

theorem ctrlDrain_sound (tag : Byte) {e : Ev} (h : e.s.dataSound) : (ctrlDrain tag e).s.dataSound := by
  have checked (before : Queues) {x : Ev} (hx : x.s.holdings = e.s.holdings) :
      (computeLevels before (checkDrain (answer tag .ok .none x))).s.dataSound :=
    State.dataSound_of_holdings (checkDrain_sound (State.dataSound_of_holdings h ((answer_holdings ..).trans hx)))
      (computeLevels_holdings ..)
  unfold ctrlDrain
  split
  · exact State.dataSound_of_holdings h (answer_holdings ..)
  · exact State.dataSound_of_holdings h (answer_holdings ..)
  · exact checked e.s.queues ((formPauses_holdings _).trans (enterDrain_holdings e))
  · split
    · exact State.dataSound_of_holdings h (answer_holdings ..)
    · exact checked e.s.queues (enterDrain_holdings e)

/-- The end of a request that empties collections leaves the holdings as they were emptied. -/
theorem emptied_holdings (before : Queues) (ys : List Tally) (tag : Byte) (e : Ev) :
    (computeLevels before (handTallies ys (answer tag .ok .none e))).s.holdings = e.s.holdings := by
  rw [computeLevels_holdings, handTallies_holdings, answer_holdings]

theorem ctrlAbort_sound (tag : Byte) {e : Ev} (h : e.s.dataSound) : (ctrlAbort tag e).s.dataSound := by
  rw [ctrlAbort]
  split
  · exact State.dataSound_of_holdings h (answer_holdings ..)
  · exact State.dataSound_of_holdings (purgeAll_sound [.bq, .cq, .jq, .tq, .pt, .aq] h) (emptied_holdings ..)

theorem ctrlPurge_sound (tag arg : Byte) {e : Ev} (h : e.s.dataSound) : (ctrlPurge tag arg e).s.dataSound := by
  rw [ctrlPurge]
  split
  · exact State.dataSound_of_holdings h (answer_holdings ..)
  · next c _ =>
    split
    · exact State.dataSound_of_holdings h (answer_holdings ..)
    · exact State.dataSound_of_holdings (purgeAll_sound [c] h) (emptied_holdings ..)

theorem ctrlReset_sound (tag : Byte) {e : Ev} (h : e.s.dataSound) : (ctrlReset tag e).s.dataSound := by
  obtain ⟨htit, ⟨hccu, hlim, hcomp, hrest⟩, hdose, -⟩ := h
  have off : ∀ i, ((IronMonitor.reset (e.s.iron.comparators.map Comparator.config)).comparators.get i).sound := fun i => by
    rw [IronMonitor.reset, Table.get_map, Table.get_map]
    exact Comparator.off_sound (Table.forall_mem_iff.mp hcomp i).1
  exact (State.dataSound_iff _).mpr ⟨TitleTable.lineReset_sound htit,
    ⟨hccu, hlim, Table.forall_mem_iff.mpr off, hrest⟩, DoseUnit.clearCarries_sound hdose, Queues.empty_sound _⟩

/-- A request that sets or clears the flag (R10, R11). -/
theorem armed_sound {s : State} (h : s.dataSound) (b : Bool) :
    State.dataSound { s with titles := { s.titles with armed := b } } :=
  State.dataSound_of_titles (s := s) h rfl (TitleTable.sound_of_eq h.1 rfl rfl rfl rfl)

theorem ctrlArm_sound (tag : Byte) {e : Ev} (h : e.s.dataSound) : (ctrlArm tag e).s.dataSound := by
  unfold ctrlArm
  split
  · exact State.dataSound_of_holdings (armed_sound h true) (answer_holdings ..)
  · exact State.dataSound_of_holdings h (answer_holdings ..)

theorem ctrlDisarm_sound (tag : Byte) {e : Ev} (h : e.s.dataSound) : (ctrlDisarm tag e).s.dataSound :=
  State.dataSound_of_holdings (armed_sound h false) (answer_holdings ..)

theorem ctrlCopy_sound (tag : Byte) {e : Ev} (h : e.s.dataSound) : (ctrlCopy tag e).s.dataSound := by
  unfold ctrlCopy
  split
  · next hu =>
    exact State.dataSound_of_titles h (answer_holdings ..)
      (TitleTable.setStandby_sound h.1 (TitleTable.copied_sound h.1 hu))
  · exact State.dataSound_of_holdings h (answer_holdings ..)

theorem ctrlRequest_sound (r : Request) (tag arg : Byte) {e : Ev} (h : e.s.dataSound) :
    (ctrlRequest r tag arg e).s.dataSound := by
  cases r with
  | start => exact ctrlStart_sound tag h
  | halt => exact State.dataSound_of_holdings h (ctrlHalt_holdings tag e)
  | resume => exact State.dataSound_of_holdings h (ctrlResume_holdings tag e)
  | drain => exact ctrlDrain_sound tag h
  | abort => exact ctrlAbort_sound tag h
  | purge => exact ctrlPurge_sound tag arg h
  | clear => exact State.dataSound_of_holdings h (ctrlClear_holdings tag e)
  | reset => exact ctrlReset_sound tag h
  | arm => exact ctrlArm_sound tag h
  | disarm => exact ctrlDisarm_sound tag h
  | copy => exact ctrlCopy_sound tag h
  | store => exact State.dataSound_of_holdings h (ctrlStore_holdings tag e)
  | proof => exact State.dataSound_of_holdings h (ctrlProof_holdings tag e)

theorem ctrl_sound (tag : Byte) (p : List Byte) {e : Ev} (h : e.s.dataSound) : (ctrl tag p e).s.dataSound := by
  unfold ctrl
  split
  · exact State.dataSound_of_holdings h (answer_holdings ..)
  · split
    · exact State.dataSound_of_holdings h (answer_holdings ..)
    · exact ctrlRequest_sound _ tag _ h

/-! ### Writes -/

/-- A region's write keeps the invariant from a state that holds nothing in CONFIG. -/
def writesSound (f : List Byte → State → Written) : Prop :=
  ∀ (p : List Byte) (s : State), s.dataSound → (s.rc.state = .config → s.queues.isEmpty) → (f p s).2.dataSound

theorem writeRegion_sound {f : List Byte → State → Written} (hf : writesSound f) (tag : Byte) (p : List Byte) {e : Ev}
    (h : e.s.dataSound) (hheld : e.s.rc.state = .config → e.s.queues.isEmpty) : (writeRegion f tag p e).s.dataSound :=
  State.dataSound_of_holdings (hf p e.s h hheld) (respond_holdings ..)

theorem writeTitle_sound : writesSound writeTitle := fun p s h _ => by
  unfold writeTitle
  split
  · exact h
  · split
    · exact h
    · next rs hrs =>
      split_ifs with _ _ hu
      · exact h
      · exact h
      · obtain ⟨-, hstandby, -⟩ := s.titles.sound_iff.mp h.1
        have decoded := forall_of_decodeAll TitleRecord.sound_of_decode hrs
        exact State.dataSound_of_titles (s := s) h rfl (TitleTable.setStandby_sound h.1
          ⟨Table.forall_setFrom hstandby.1 decoded _, (Bank.keysUnique_iff _).mp hu⟩)
      · exact h

theorem writeDose_sound : writesSound writeDose := fun p s h _ => by
  unfold writeDose
  split
  · exact h
  · split
    · exact h
    · next rs hrs =>
      split_ifs
      · exact h
      · exact h
      · exact State.dataSound_of_dose (s := s) h rfl
          (DoseUnit.write_sound h.2.2.1 _ (forall_of_decodeAll Recipe.inRange_of_decode hrs))

theorem writeProfile_sound : writesSound writeProfile := fun p s h _ => by
  unfold writeProfile
  split
  · exact h
  · split
    · exact h
    · split_ifs
      exacts [h, h, h]

theorem writeCalibration_sound : writesSound writeCalibration := fun p s h _ => by
  unfold writeCalibration
  split_ifs with _ hrange
  · exact h
  · exact h
  · exact h
  · obtain ⟨htit, ⟨-, hsettings⟩, hdata⟩ := h
    exact ⟨htit, ⟨by simpa using mt Or.inr hrange, hsettings⟩, hdata⟩

/-- Where nothing is held the counts are below any limits. -/
theorem Queues.sound_of_isEmpty {q : Queues} (h : q.isEmpty) (l : Limits) : q.sound l := by
  obtain ⟨hb, hc, hj, ht, hp, ha⟩ := h
  have hq : q = Queues.empty := by
    cases q
    subst hb hc hj ht hp ha
    rfl
  exact hq ▸ Queues.empty_sound l

theorem writeLimits_sound : writesSound writeLimits := fun p s h hheld => by
  unfold writeLimits
  split_ifs with _ hrange hrc
  · exact h
  · exact h
  · exact h
  · obtain ⟨htit, ⟨hccu, -, hsettings⟩, hdose, -⟩ := h
    exact ⟨htit, ⟨hccu, by simpa using mt Or.inr hrange, hsettings⟩, hdose,
      Queues.sound_of_isEmpty (hheld (not_not.mp hrc)) _⟩

theorem writeLinemap_sound : writesSound writeLinemap := fun p s h _ => by
  unfold writeLinemap
  split_ifs with _ hrange
  · exact h
  · exact h
  · exact h
  · obtain ⟨htit, ⟨hccu, hlim, hcomp, hnode, hmap⟩, hdata⟩ := h
    have written : ∀ n ∈ p.drop 4, n.toNat ≤ 62 := fun n hn => by
      have hmappable : (p.drop 4).all (mappable s) = true := by
        by_contra hno
        exact hrange (.inr (.inr (.inr (by simpa using hno))))
      have hstation := List.all_eq_true.mp hmappable n hn
      simp only [mappable, Bool.and_eq_true] at hstation
      exact ((stationNode_iff n).mp hstation.1.1).2
    exact ⟨htit, ⟨hccu, hlim, hcomp, hnode, Table.forall_mem_iff.mpr
      (Table.forall_setFrom (P := fun n : Node => n.toNat ≤ 62) (Table.forall_mem_iff.mp hmap) written _)⟩, hdata⟩

theorem writeNode_sound : writesSound writeNode := fun p s h _ => by
  unfold writeNode
  split_ifs with _ hrange
  · exact h
  · exact h
  · exact h
  · exact h
  · obtain ⟨htit, ⟨hccu, hlim, hcomp, -, hmap⟩, hdata⟩ := h
    have hnode : stationNode (byteAt p 4) = true := by
      by_contra hno
      exact hrange (.inr (.inl (by simpa using hno)))
    exact ⟨htit, ⟨hccu, hlim, hcomp, (stationNode_iff _).mp hnode, hmap⟩, hdata⟩

theorem writeProtect_sound : writesSound writeProtect := fun p s h _ => by
  unfold writeProtect
  split_ifs
  · exact h
  · exact h
  · exact h
  · exact State.dataSound_of_titles (s := s) h rfl (TitleTable.sound_of_eq h.1 rfl rfl rfl rfl)

theorem writeComparators_sound (i : Nat) {cs : List ComparatorConfig} (hcs : ∀ c ∈ cs, c.inRange = true) {e : Ev}
    (h : e.s.dataSound) : (writeComparators i cs e).s.dataSound := by
  induction cs generalizing i e with
  | nil => exact h
  | cons c cs ih =>
    obtain ⟨hc, hrest⟩ := List.forall_mem_cons.mp hcs
    have written : State.dataSound { e.s with iron := { e.s.iron with
        comparators := e.s.iron.comparators.set (Fin.ofNat 4 i) (Comparator.off c) } } :=
      State.dataSound_of_comparators (s := e.s) h rfl
        (Table.forall_set (Table.forall_mem_iff.mp h.2.1.2.2.1) (Comparator.off_sound hc) _)
    refine ih (i + 1) hrest ?_
    split
    · exact State.dataSound_of_holdings written (logAlert_holdings ..)
    · exact written

theorem comparatorRecords_inRange (p : List Byte) : ∀ c ∈ (comparatorRecords p).2, c.inRange = true := by
  unfold comparatorRecords
  split
  · exact List.forall_mem_nil _
  · split
    · exact List.forall_mem_nil _
    · next cs hcs =>
      split
      · exact List.forall_mem_nil _
      · exact forall_of_decodeAll ComparatorConfig.inRange_of_decode hcs

theorem writeTo_sound (r : Region) (tag : Byte) (p : List Byte) {e : Ev} (h : e.s.dataSound)
    (hheld : e.s.rc.state = .config → e.s.queues.isEmpty) : (writeTo r tag p e).s.dataSound := by
  cases r with
  | title => exact writeRegion_sound writeTitle_sound tag p h hheld
  | dose => exact writeRegion_sound writeDose_sound tag p h hheld
  | profile => exact writeRegion_sound writeProfile_sound tag p h hheld
  | calibration => exact writeRegion_sound writeCalibration_sound tag p h hheld
  | limits => exact writeRegion_sound writeLimits_sound tag p h hheld
  | linemap => exact writeRegion_sound writeLinemap_sound tag p h hheld
  | node => exact writeRegion_sound writeNode_sound tag p h hheld
  | protect => exact writeRegion_sound writeProtect_sound tag p h hheld
  | comparator =>
    exact State.dataSound_of_holdings (writeComparators_sound _ (comparatorRecords_inRange p) h) (respond_holdings ..)
  | _ => exact State.dataSound_of_holdings h (respond_holdings ..)

theorem write_sound (tag : Byte) (p : List Byte) {e : Ev} (h : e.s.dataSound)
    (hheld : e.s.rc.state = .config → e.s.queues.isEmpty) : (write tag p e).s.dataSound := by
  unfold write
  split
  · exact State.dataSound_of_holdings h (respond_holdings ..)
  · split
    · exact State.dataSound_of_holdings h (respond_holdings ..)
    · exact writeTo_sound _ tag p h hheld

/-! ### Reception -/

theorem fromMaster_sound {src : Node} {f : Ev → Ev} {e : Ev} (h : e.s.dataSound) (hf : (f e).s.dataSound) :
    (fromMaster src f e).s.dataSound := by
  unfold fromMaster
  split
  · exact hf
  · exact h

theorem take_sound (m : Message) {e : Ev} (h : e.s.dataSound) (hheld : e.s.rc.state = .config → e.s.queues.isEmpty) :
    (take m e).s.dataSound := by
  rw [take]
  cases Kind.ofCode m.kind with
  | none => exact fromMaster_sound h (State.dataSound_of_holdings h (answer_holdings ..))
  | some k =>
    cases k with
    | sight => exact sight_sound _ _ h
    | cycle => exact cycle_sound _ _ h
    | sense => exact sense_sound _ _ h
    | mark => exact mark_sound _ _ h
    | ctrl => exact fromMaster_sound h (ctrl_sound _ _ h)
    | write => exact fromMaster_sound h (write_sound _ _ h hheld)
    | read => exact fromMaster_sound h (State.dataSound_of_holdings h (read_holdings ..))
    | _ => exact h

theorem forward_queues (m : Message) (e : Ev) : (forward m e).s.queues = e.s.queues :=
  congrArg Holdings.queues (forward_holdings m e)

theorem dispose_sound (m : Message) {e : Ev} (h : e.s.dataSound)
    (hheld : e.s.rc.state = .config → e.s.queues.isEmpty) : (dispose m e).s.dataSound := by
  have forwarded := State.dataSound_of_holdings h (forward_holdings m e)
  unfold dispose
  split_ifs
  · exact State.dataSound_of_holdings h (stripped_holdings m e)
  · exact take_sound m h hheld
  · exact take_sound m forwarded (by rwa [forward_rc, forward_queues])
  · exact forwarded

theorem receive_sound (m : Message) {s : State} (h : s.dataSound) (hheld : s.rc.state = .config → s.queues.isEmpty) :
    (receive m s).dataSound := by
  unfold receive event
  split
  · refine State.dataSound_of_holdings ?_ (finish_holdings _)
    split
    · have harr : goodReceived m (Ev.start s) = dispose m s.arrival := congrArg (dispose m) s.arrival_eq
      rw [harr]
      refine dispose_sound m (State.dataSound_of_holdings h s.arrival_holdings) ?_
      rw [State.arrival_s, State.arrived_rc, State.arrived_queues]
      exact hheld
    · exact State.dataSound_of_holdings h (badReceived_holdings _)
  · exact h

/-! ### Power-on -/

/-- Only the waiting commands tell the holdings after a power-on reset from those of the reset state. -/
theorem powerOnReset_sound (n : Nat) (s : State) : (powerOnReset n s).dataSound := by
  obtain ⟨-, h, -⟩ := resetMeetsInvariants
  exact (State.dataSound_iff _).mpr h

/-- A loaded group is in range, as its default is (R170, R171). -/
theorem StoreGroup.load_inRange {α : Type} (g : StoreGroup α) {f : α → Bool} {d : α} (h : f d = true) :
    f (g.load f d) = true := by
  by_cases hg : g.usable f
  · rw [StoreGroup.load_usable d hg]
    exact hg.2.2
  · rwa [StoreGroup.load_bad d hg]

theorem Settings.default_inRange :
    stationNode Settings.default.node = true ∧ Settings.default.caliper.record.inRange = true
      ∧ comparatorsInRange Settings.default.comparators = true ∧ Settings.default.limits.inRange = true
      ∧ lineMapInRange Settings.default.lineMap = true ∧ Settings.default.recipes.inRange = true := by
  refine ⟨by decide, by decide, by decide, by decide, by decide, ?_⟩
  rw [RecipeGroup.inRange, Bool.and_eq_true, List.all_eq_true, List.all_eq_true]
  refine ⟨fun r hr => ?_, fun r hr => ?_⟩
  · rw [Table.mem_fill hr]
    decide
  · rw [Table.mem_fill hr]
    decide

/-- Working copies in range keep the invariant where nothing is held and no carry is left. -/
theorem State.withSettings_sound {s : State} {w : Settings} (h : s.titles.sound) (hempty : s.queues.isEmpty)
    (hcarries : ∀ x ∈ s.dose.carries.list, x = 0) (hnode : stationNode w.node = true)
    (hccu : w.caliper.record.inRange = true) (hcomp : comparatorsInRange w.comparators = true)
    (hlim : w.limits.inRange = true) (hmap : lineMapInRange w.lineMap = true) (hrec : w.recipes.inRange = true) :
    (s.withSettings w).dataSound := by
  rw [comparatorsInRange, Table.all_iff] at hcomp
  rw [lineMapInRange, List.all_eq_true] at hmap
  rw [RecipeGroup.inRange, Bool.and_eq_true, List.all_eq_true] at hrec
  have hzero : s.dose.carries = Table.fill 64 0 :=
    Table.ext_get fun i => (Table.forall_mem_iff.mp hcarries i).trans (Table.get_fill ..).symm
  refine (State.dataSound_iff _).mpr ⟨TitleTable.sound_of_eq h rfl rfl rfl rfl, ⟨hccu, hlim, ?_,
    (stationNode_iff _).mp hnode, fun n hn => of_decide_eq_true (hmap n hn)⟩, ?_, Queues.sound_of_isEmpty hempty _⟩
  · refine Table.forall_mem_iff.mpr fun i => ?_
    change Comparator.sound ((w.comparators.map fun r => Comparator.off r.config).get i)
    rw [Table.get_map]
    exact Comparator.off_sound (ComparatorRecord.config_inRange (hcomp i))
  · change DoseUnit.sound ⟨w.recipes.recipes, s.dose.carries⟩
    rw [hzero]
    exact DoseUnit.sound_clear hrec.1

theorem judgedAlerts_holdings (n : Nat) (js : List Judged) (e : Ev) : (judgedAlerts n js e).s.holdings = e.s.holdings := by
  induction js generalizing n e with
  | nil => rfl
  | cons j js ih =>
    rw [judgedAlerts, ih]
    cases j <;> rfl

theorem powerOnLoad_sound (cells : CellReport) {s : State} (hline : s.lineSound) (h : s.dataSound) :
    (powerOnLoad cells s).dataSound := by
  obtain ⟨⟨-, -, hheld, -⟩, -, -, -, hstart⟩ := hline
  unfold powerOnLoad
  split
  · next hphase =>
    obtain ⟨hconfig, -, -, -, -, hcarries⟩ := hstart (by rw [hphase]; decide)
    obtain ⟨hnode, hccu, hcomp, hlim, hmap, hrec⟩ := Settings.default_inRange
    refine State.dataSound_of_holdings ?_ ((finish_holdings _).trans (judgedAlerts_holdings ..))
    exact State.withSettings_sound (s := { s with phase := .loading, store := s.store.aged cells }) h.1 (hheld hconfig)
      hcarries (StoreGroup.load_inRange _ hnode)
      (StoreGroup.load_inRange (f := fun c : CaliperUnit => c.record.inRange) _ hccu) (StoreGroup.load_inRange _ hcomp)
      (StoreGroup.load_inRange _ hlim) (StoreGroup.load_inRange _ hmap) (StoreGroup.load_inRange _ hrec)
  · exact h

/-! ### Every command -/

theorem exec_dataSound {c : Instr} {s t : State} (hline : s.lineSound) (h : s.dataSound) (hexec : exec c s = .next t) :
    t.dataSound := by
  cases hc : carried c with
  | some m =>
    rw [exec_carried hc] at hexec
    obtain rfl := Host.Outcome.next.inj hexec
    obtain ⟨⟨-, -, hheld, -⟩, -⟩ := hline
    have hpins : (s.withPinsOf c).holdings = s.holdings ∧ (s.withPinsOf c).rc = s.rc
        ∧ (s.withPinsOf c).queues = s.queues := by
      cases c <;> exact ⟨rfl, rfl, rfl⟩
    obtain ⟨hh, hrc, hq⟩ := hpins
    exact receive_sound m (State.dataSound_of_holdings h hh) (by rwa [hrc, hq])
  | none =>
    by_cases hn : ∃ n, c = .powerOnReset n
    · obtain ⟨n, rfl⟩ := hn
      exact Host.Outcome.next.inj hexec ▸ powerOnReset_sound n s
    by_cases hl : ∃ cells, c = .powerOnLoad cells
    · obtain ⟨cells, rfl⟩ := hl
      exact Host.Outcome.next.inj hexec ▸ powerOnLoad_sound cells hline h
    obtain ⟨ph, hh⟩ := exec_uncarried_holdings hc (fun n hn' => hn ⟨n, hn'⟩) (fun cells hl' => hl ⟨cells, hl'⟩) hexec
    rw [State.dataSound_iff, hh]
    exact h

/-- A step is the front command on the state with the rest of the commands, or nothing. -/
theorem step_next {s t : State} (h : step s = .next t) :
    t = s ∨ ∃ c rest, s.pending = c :: rest ∧ exec c { s with pending := rest } = .next t := by
  unfold step at h
  split at h
  · exact .inl (Host.Outcome.next.inj h).symm
  · next c rest hp => exact .inr ⟨c, rest, hp, h⟩

/-- Settles O57: every operation of an event keeps the invariant of the data, which speaks of the holdings alone; the
invariant of the line says that nothing is held where limits are written or loaded. -/
theorem dataInvariantKept : Obligations.DataInvariantKept := by
  intro s t hline h hstep
  rcases step_next hstep with rfl | ⟨c, rest, -, hexec⟩
  · exact h
  · exact exec_dataSound (s := { s with pending := rest }) hline h hexec

end Sys2Proof.Machine
end

section
/-! SUPPORT. The invariant of the line in mid-event: what of it every shared operation keeps (R50, R127, R134, R138, R153,
R154, R165, R166). -/

namespace Sys2Proof.Machine

/-! ### What the invariant speaks of -/

/-- Run Control, the last levels, the collections, the log, and the Ring Port's link, counts and buffers. -/
structure LineView where
  rc : RunControl
  feed : FeedLevels
  queues : Queues
  mu : Management
  link : LinkState
  consecBad : Nat
  linkErrors : Nat
  outbound : List Message
  forward : List Message

def State.line (s : State) : LineView :=
  ⟨s.rc, s.feed, s.queues, s.mu, s.ring.link, s.ring.consecBad, s.ring.linkErrors, s.ring.outbound, s.ring.forward⟩

/-- The collections are within their capacities (R42, R72, R83). -/
def Queues.fits (q : Queues) : Prop :=
  q.bq.length ≤ 24 ∧ q.cq.length ≤ 16 ∧ q.jq.length ≤ 16 ∧ q.tq.length ≤ 4 ∧ q.aq.length ≤ 8

/-- Run Control's part of the invariant, but for what DRAIN holds (R50, R127, R128, R134). -/
def RunControl.sound (rc : RunControl) (q : Queues) (f : FeedLevels) : Prop :=
  (rc.state = .halt ↔ rc.causes ≠ CauseSet.empty) ∧ (rc.stopN = .low ↔ rc.state = .halt)
    ∧ (rc.state = .config → q.isEmpty) ∧ (rc.state ≠ .run → f = FeedLevels.paused)

theorem RunControl.sound_halt (q : Queues) {cs : CauseSet} (h : cs ≠ CauseSet.empty) :
    RunControl.sound ⟨.halt, cs, .low⟩ q FeedLevels.paused := ⟨iff_of_true rfl h, iff_of_true rfl rfl, nofun, fun _ => rfl⟩

theorem RunControl.sound_config {q : Queues} (h : q.isEmpty) : RunControl.config.sound q FeedLevels.paused :=
  ⟨iff_of_false nofun (fun hc => hc rfl), iff_of_false nofun nofun, fun _ => h, fun _ => rfl⟩

theorem RunControl.sound_run (q : Queues) (f : FeedLevels) : RunControl.sound ⟨.run, CauseSet.empty, .released⟩ q f :=
  ⟨iff_of_false nofun (fun hc => hc rfl), iff_of_false nofun nofun, nofun, fun hc => absurd rfl hc⟩

theorem RunControl.sound_drain (q : Queues) :
    RunControl.sound ⟨.drain, CauseSet.empty, .released⟩ q FeedLevels.paused :=
  ⟨iff_of_false nofun (fun hc => hc rfl), iff_of_false nofun nofun, nofun, fun _ => rfl⟩

/-- The log's part (R165, R166, R167). -/
def Management.sound (mu : Management) : Prop :=
  mu.log.length ≤ 32 ∧ (mu.attn = .high ↔ mu.log ≠ []) ∧ (mu.overrun = true → mu.log ≠ [])

/-- What every operation of an event keeps of the invariant. -/
structure LineView.kept (v : LineView) : Prop where
  run : v.rc.sound v.queues v.feed
  log : v.mu.sound
  fits : v.queues.fits
  outbound : v.outbound.length ≤ 32
  forward : v.forward.length ≤ 2
  bad : v.consecBad ≤ 8
  up : v.link = .up → v.consecBad ≤ 7
  errors : v.linkErrors ≤ 65535

/-- DRAIN has something to drain (R138). -/
def LineView.draining (v : LineView) : Prop := v.rc.state = .drain → v.queues.drained ≠ true

/-- What every operation keeps, with a DRAIN that goes on. -/
def State.lineHeld (s : State) : Prop := s.line.kept ∧ s.line.draining

/-- An idle transmitter leaves nothing waiting (R153). -/
def RingPort.chosen (r : RingPort) : Prop := r.tx = .idle → r.outbound = [] ∧ r.forward = []

theorem State.lineSound_iff (s : State) :
    s.lineSound ↔ s.lineHeld ∧ (s.phase = .running → s.ring.chosen) ∧ s.startUpSound := by
  have hdrained : s.queues.drained ≠ true ↔ ¬ (s.queues.bq = [] ∧ s.queues.tq = []
      ∧ s.queues.pt = ⟨none, none, none, none, none, none⟩ ∧ s.queues.aq = []) := by
    rw [Ne, Queues.drained_iff, and_comm (a := s.queues.aq = [])]
  constructor
  · rintro ⟨⟨hh, hs, hc, hf, hd⟩, hlog, ⟨hb, hcq, hj, ht, ha, ho, hfw⟩, ⟨hbad, hup, herr, hidle⟩, hstart⟩
    exact ⟨⟨⟨⟨hh, hs, hc, hf⟩, hlog, ⟨hb, hcq, hj, ht, ha⟩, ho, hfw, hbad, hup, herr⟩, fun h => hdrained.mpr (hd h)⟩,
      hidle, hstart⟩
  · rintro ⟨⟨⟨⟨hh, hs, hc, hf⟩, hlog, ⟨hb, hcq, hj, ht, ha⟩, ho, hfw, hbad, hup, herr⟩, hd⟩, hidle, hstart⟩
    exact ⟨⟨hh, hs, hc, hf, fun h => hdrained.mp (hd h)⟩, hlog, ⟨hb, hcq, hj, ht, ha, ho, hfw⟩,
      ⟨hbad, hup, herr, hidle⟩, hstart⟩

section Shared
variable {s t : State}

theorem State.lineHeld_of_line (h : s.lineHeld) (ht : t.line = s.line) : t.lineHeld := by
  rw [State.lineHeld, ht]
  exact h

theorem State.kept_of_line (h : s.line.kept) (ht : t.line = s.line) : t.line.kept := by
  rw [ht]
  exact h

/-! ### Records -/

theorem Management.sound_logged {mu : Management} (h : mu.sound) (a : Alert) : (mu.logged a).sound := by
  obtain ⟨hlen, hattn, hover⟩ := h
  rcases Nat.lt_or_ge mu.log.length 32 with hroom | hfull
  · by_cases hfirst : mu.log = []
    · rw [Management.logged_first a hfirst]
      exact ⟨Nat.le_add_left 1 31, iff_of_true rfl (List.cons_ne_nil _ _), fun _ => List.cons_ne_nil _ _⟩
    · rw [Management.logged_behind a hfirst hroom]
      have hheld : mu.log ++ [a] ≠ [] := List.append_ne_nil_of_left_ne_nil hfirst _
      refine ⟨?_, iff_of_true (hattn.mpr hfirst) hheld, fun _ => hheld⟩
      rw [List.length_append, List.length_singleton]
      exact hroom
  · rw [Management.logged_full a hfull]
    refine ⟨hlen, hattn, fun _ hnil => ?_⟩
    rw [hnil] at hfull
    exact absurd hfull (by decide)

theorem LineView.kept.logged {v : LineView} (h : v.kept) (a : Alert) : LineView.kept { v with mu := v.mu.logged a } :=
  { h with log := Management.sound_logged h.log a }

theorem State.kept_logging (h : s.line.kept) (code : AlertCode) (stage : Byte) (serial : Serial) (key : TitleKey)
    (detail : Word) : (s.logging code stage serial key detail).line.kept := h.logged _

theorem State.lineHeld_logging (h : s.lineHeld) (code : AlertCode) (stage : Byte) (serial : Serial) (key : TitleKey)
    (detail : Word) : (s.logging code stage serial key detail).lineHeld := ⟨h.1.logged _, h.2⟩

theorem logAlert_kept {e : Ev} (h : e.s.line.kept) (code : AlertCode) (stage : Byte) (serial : Serial) (key : TitleKey)
    (detail : Word) : (logAlert code stage serial key detail e).s.line.kept := h.logged _

theorem logAlert_held {e : Ev} (h : e.s.lineHeld) (code : AlertCode) (stage : Byte) (serial : Serial) (key : TitleKey)
    (detail : Word) : (logAlert code stage serial key detail e).s.lineHeld := ⟨h.1.logged _, h.2⟩

/-! ### Causes -/

theorem CauseSet.add_ne_empty (cs : CauseSet) (c : Cause) : cs.add c ≠ CauseSet.empty := by
  cases c <;> intro h <;> cases cs <;> simp [CauseSet.add, CauseSet.empty] at h

/-- A cause is kept in HALT alone, with STOP_N low and the feeders at PAUSE (R127, R132, R134). -/
theorem LineView.kept.halted {v : LineView} (h : v.kept) {cs : CauseSet} (hcs : cs ≠ CauseSet.empty) :
    LineView.kept { v with rc := ⟨.halt, cs, .low⟩, feed := FeedLevels.paused } :=
  { h with run := RunControl.sound_halt _ hcs }

theorem State.kept_caused (h : s.line.kept) (c : Cause) : (s.caused c).line.kept := by
  have hpaused : s.rc.state ≠ .run → s.feed = FeedLevels.paused := h.run.2.2.2
  have keep {cs : CauseSet} (hcs : cs ≠ CauseSet.empty) (hne : s.rc.state ≠ .run) :
      LineView.kept { s.line with rc := ⟨.halt, cs, .low⟩ } := by
    have halted := h.halted hcs
    rwa [← hpaused hne] at halted
  unfold State.caused
  split
  · exact h
  · exact (h.halted (CauseSet.add_ne_empty _ c)).logged _
  · next hst => exact (keep (CauseSet.add_ne_empty _ c) (by rw [hst]; decide)).logged _
  · next hst =>
    have hlow : s.rc.stopN = .low := h.run.2.1.mpr hst
    have halted := keep (CauseSet.add_ne_empty s.rc.causes c) (by rw [hst]; decide)
    rwa [← hst, ← hlow] at halted

/-- Raising a cause never leaves DRAIN standing (R132). -/
theorem State.caused_not_drain (c : Cause) (s : State) : (s.caused c).rc.state ≠ .drain := by
  unfold State.caused
  split
  · next h => rw [h]; decide
  · exact fun h => absurd h (by simp)
  · exact fun h => absurd h (by simp)
  · next h => exact fun hd => absurd (h.symm.trans hd) (by decide)

theorem State.lineHeld_caused (h : s.lineHeld) (c : Cause) : (s.caused c).lineHeld :=
  ⟨s.kept_caused h.1 c, fun hd => absurd hd (s.caused_not_drain c)⟩

theorem raiseCause_kept {e : Ev} (h : e.s.line.kept) (c : Cause) : (raiseCause c e).s.line.kept := by
  rw [raiseCause_s]
  exact State.kept_caused h c

theorem raiseCause_held {e : Ev} (h : e.s.lineHeld) (c : Cause) : (raiseCause c e).s.lineHeld := by
  rw [raiseCause_s]
  exact State.lineHeld_caused h c

/-! ### Messages handed over -/

theorem hand_kept (m : Message) {e : Ev} (h : e.s.line.kept) : (hand m e).s.line.kept := by
  unfold hand
  split
  · next hroom =>
    have hlen : (e.s.ring.outbound ++ [m]).length ≤ 32 := by
      rw [List.length_append, List.length_singleton]
      exact hroom
    exact { h with outbound := hlen }
  · refine raiseCause_kept (logAlert_kept ?_ ..) _
    split
    · exact State.kept_of_line h rfl
    · exact h

/-- Handing a message over enters no DRAIN and moves no item. -/
theorem hand_draining (m : Message) {e : Ev} (h : e.s.line.draining) : (hand m e).s.line.draining := by
  intro hd
  by_contra hdrained
  have hstood : e.s.rc.state = .drain := by
    by_contra hne
    exact hand_drain m e hne hd
  have hqueues : (hand m e).s.queues = e.s.queues := State.sameButSending_queues (hand_same m e)
  exact h hstood ((congrArg Queues.drained hqueues).symm.trans hdrained)

theorem hand_held (m : Message) {e : Ev} (h : e.s.lineHeld) : (hand m e).s.lineHeld :=
  ⟨hand_kept m h.1, hand_draining m h.2⟩

theorem handAll_induct {P : State → Prop} (hP : ∀ m e, P e.s → P (hand m e).s) (ms : List Message) {e : Ev} (h : P e.s) :
    P (handAll ms e).s := by
  induction ms generalizing e with
  | nil => exact h
  | cons m ms ih => exact ih (hP m e h)

theorem flushFeeds_induct {P : State → Prop} (hP : ∀ m e, P e.s → P (hand m e).s) {e : Ev} (h : P e.s) :
    P (flushFeeds e).s := by
  have all (fs : List (Feeder × FeedLevel)) {x : Ev} (hx : P x.s) : P (handFeeds fs x).s := by
    induction fs generalizing x with
    | nil => exact hx
    | cons f fs ih =>
      refine ih ?_
      unfold handFeed
      split
      · exact hx
      · exact hP _ _ hx
  exact all e.feeds (x := { e with feeds := [] }) h

theorem flushAlerts_induct {P : State → Prop} (hP : ∀ m e, P e.s → P (hand m e).s) {e : Ev} (h : P e.s) :
    P (flushAlerts e).s := handAll_induct hP _ (e := { e with alertsDue := 0 }) h

/-- The end of an event keeps what handing a message over keeps, but for the choice of the transmitter. -/
theorem finish_induct {P : State → Prop} (hP : ∀ m e, P e.s → P (hand m e).s) {e : Ev} (h : P e.s) :
    ∃ u, P u ∧ finish e = if u.phase = .running then { u with ring := u.ring.choose } else u :=
  ⟨_, flushAlerts_induct hP (flushFeeds_induct hP (flushAlerts_induct hP (flushFeeds_induct hP (flushFeeds_induct hP h)))),
    rfl⟩

/-- The transmitter's choice leaves an idle transmitter with nothing waiting (R153). -/
theorem RingPort.choose_chosen (r : RingPort) : r.choose.chosen := by
  intro hidle
  unfold RingPort.choose at hidle ⊢
  split at hidle
  · cases hidle
  · cases hidle
  · next hf ho =>
    cases hfw : r.forward with
    | cons m f => exact absurd hfw (hf m f hidle)
    | nil =>
      cases hout : r.outbound with
      | cons m q => exact absurd hout (ho m q hidle hfw)
      | nil =>
        exact ⟨rfl, rfl⟩

/-- The choice takes a message from one of the two buffers, or none. -/
theorem State.lineHeld_choose (h : s.lineHeld) : State.lineHeld { s with ring := s.ring.choose } := by
  unfold RingPort.choose
  split
  · next m f _ hf =>
    have hlen : (m :: f).length ≤ 2 := hf ▸ h.1.forward
    exact ⟨{ h.1 with forward := (Nat.le_succ _).trans hlen }, h.2⟩
  · next m q _ _ hq =>
    have hlen : (m :: q).length ≤ 32 := hq ▸ h.1.outbound
    exact ⟨{ h.1 with outbound := (Nat.le_succ _).trans hlen }, h.2⟩
  · exact h

/-- The end of an event in the running phase. -/
theorem finish_lineSound {e : Ev} (h : e.s.lineHeld) (hrun : e.s.phase = .running) : (finish e).lineSound := by
  have hphase : (finish e).phase = .running :=
    (State.sameButSending_phase (finish_same e)).trans hrun
  obtain ⟨u, hu, hfinish⟩ := finish_induct (P := State.lineHeld) (fun m _ hx => hand_held m hx) h
  have hup : u.phase = .running := by
    rw [hfinish] at hphase
    split at hphase
    · exact hphase
    · exact hphase
  rw [hfinish, if_pos hup] at *
  exact (State.lineSound_iff _).mpr ⟨State.lineHeld_choose hu, fun _ => RingPort.choose_chosen _,
    fun hne => absurd hup hne⟩

/-! ### Feed levels -/

theorem FeedLevels.paused_of (f : Feeder) : FeedLevels.paused.of f = .pause := by cases f <;> rfl

/-- A computation outside RUN finds PAUSE and has been sent PAUSE (R50). -/
theorem computeLevel_kept (f : Feeder) {e : Ev} (h : e.s.line.kept) : (computeLevel f e).s.line.kept := by
  unfold computeLevel
  split
  · exact h
  · next hne =>
    have hrun : e.s.rc.state = .run := by
      by_contra hnot
      have hpaused : e.s.feed = FeedLevels.paused := h.run.2.2.2 hnot
      exact hne (by rw [computedLevel, if_neg hnot, hpaused, FeedLevels.paused_of])
    exact { h with run := ⟨h.run.1, h.run.2.1, h.run.2.2.1, fun hnot => absurd hrun hnot⟩ }

theorem levelIfChanged_kept (before : Queues) (f : Feeder) {e : Ev} (h : e.s.line.kept) :
    (levelIfChanged before f e).s.line.kept := by
  unfold levelIfChanged
  split
  · exact h
  · exact computeLevel_kept f h

theorem computeLevels_kept (before : Queues) {e : Ev} (h : e.s.line.kept) : (computeLevels before e).s.line.kept :=
  levelIfChanged_kept before _ (levelIfChanged_kept before _ (levelIfChanged_kept before _ h))

/-- The computations move no item and change no run state. -/
theorem computeLevels_rc (before : Queues) (e : Ev) : (computeLevels before e).s.rc = e.s.rc := by
  have one (f : Feeder) (e : Ev) : (levelIfChanged before f e).s.rc = e.s.rc := by
    unfold levelIfChanged computeLevel
    split
    · rfl
    · split <;> rfl
  rw [computeLevels, one, one, one]

theorem computeLevels_held (before : Queues) {e : Ev} (h : e.s.lineHeld) : (computeLevels before e).s.lineHeld := by
  refine ⟨computeLevels_kept before h.1, ?_⟩
  have hqueues : (computeLevels before e).s.queues = e.s.queues := State.sameButSending_queues (computeLevels_same ..)
  intro hd
  change (computeLevels before e).s.rc.state = .drain at hd
  change (computeLevels before e).s.queues.drained ≠ true
  rw [computeLevels_rc] at hd
  rw [hqueues]
  exact h.2 hd

/-! ### Collections that change -/

/-- Items may come and go outside CONFIG, within the capacities (R128). -/
theorem LineView.kept.moved {v : LineView} (h : v.kept) (hrc : v.rc.state ≠ .config) {q : Queues} (hq : q.fits) :
    LineView.kept { v with queues := q } :=
  { h with run := ⟨h.run.1, h.run.2.1, fun hc => absurd hc hrc, h.run.2.2.2⟩, fits := hq }

/-- An entry into CONFIG with nothing held and the feeders at PAUSE (R127, R128). -/
theorem LineView.kept.configured {v : LineView} (h : v.kept) (hq : v.queues.isEmpty) (hf : v.feed = FeedLevels.paused) :
    LineView.kept { v with rc := RunControl.config } := { h with run := hf ▸ RunControl.sound_config hq }

/-- An entry into RUN, at whatever levels (R127). -/
theorem LineView.kept.running {v : LineView} (h : v.kept) (f : FeedLevels) :
    LineView.kept { v with rc := ⟨.run, CauseSet.empty, .released⟩, feed := f } :=
  { h with run := RunControl.sound_run _ f }

/-- An entry into DRAIN with the feeders at PAUSE (R127, R137). -/
theorem LineView.kept.drained {v : LineView} (h : v.kept) :
    LineView.kept { v with rc := ⟨.drain, CauseSet.empty, .released⟩, feed := FeedLevels.paused } :=
  { h with run := RunControl.sound_drain _ }

/-- A completed drain holds nothing: what was left in CQ and JQ has been purged (R138). -/
theorem completeDrain_held {e : Ev} (h : e.s.line.kept) (hrc : e.s.rc.state = .drain)
    (hdrained : e.s.queues.drained = true) : (completeDrain e).s.lineHeld := by
  obtain ⟨hb, ht, ha, hp⟩ := (Queues.drained_iff _).mp hdrained
  have hfeed : e.s.feed = FeedLevels.paused := h.run.2.2.2 fun hrun => absurd (hrc.symm.trans hrun) (by decide)
  have hfits := h.fits
  have hne : e.s.line.rc.state ≠ .config := by
    change e.s.rc.state ≠ .config
    rw [hrc]
    decide
  have emptied := ((h.moved hne (q := { e.s.queues with cq := [], jq := [] })
    ⟨hfits.1, Nat.zero_le _, Nat.zero_le _, hfits.2.2.2⟩).logged ⟨.drained, 0, 0, 0, e.s.cycles.stamp,
      BitVec.ofNat 16 (purgeAll [.cq, .jq] e).1.length⟩).configured ⟨hb, rfl, rfl, ht, hp, ha⟩ hfeed
  exact handAll_induct (P := State.lineHeld) (fun m _ hx => hand_held m hx) _ ⟨emptied, fun hd => by cases hd⟩

/-- The check for drain completion leaves no DRAIN with nothing to drain (R138). -/
theorem checkDrain_line {e : Ev} (h : e.s.line.kept) : (checkDrain e).s.lineHeld := by
  unfold checkDrain
  split
  · next hd => exact completeDrain_held h hd.1 hd.2
  · next hd => exact ⟨h, fun hrc hdrained => hd ⟨hrc, hdrained⟩⟩

end Shared

end Sys2Proof.Machine
end

section
/-! SUPPORT. The invariant of the line through the three cycles: a cycle that takes a record out of BQ, TQ, PT or AQ checks
for drain completion, and one that does not leaves a DRAIN with as much to drain (R76, R92, R119, R138). -/

namespace Sys2Proof.Machine

/-! ### In mid-cycle -/

/-- A cycle taken in `s` has come to `t`: the invariant is kept, the part is not in CONFIG, and it is in DRAIN only if it
was. -/
structure State.cycling (s t : State) : Prop where
  kept : t.line.kept
  busy : t.rc.state ≠ .config
  drain : t.rc.state = .drain → s.rc.state = .drain

section Cycling
variable {s t u : State}

theorem State.cycling.of_line (h : s.cycling t) (hu : u.line = t.line) : s.cycling u := by
  have hrc : u.rc = t.rc := congrArg LineView.rc hu
  exact ⟨State.kept_of_line h.kept hu, hrc ▸ h.busy, hrc ▸ h.drain⟩

theorem State.cycling.logging (h : s.cycling t) (code : AlertCode) (stage : Byte) (serial : Serial) (key : TitleKey)
    (detail : Word) : s.cycling (t.logging code stage serial key detail) :=
  ⟨State.kept_logging h.kept .., h.busy, h.drain⟩

theorem State.caused_config_iff (c : Cause) (s : State) : (s.caused c).rc.state = .config ↔ s.rc.state = .config := by
  unfold State.caused
  split
  · exact Iff.rfl
  · next h => exact iff_of_false nofun (by rw [h]; nofun)
  · next h => exact iff_of_false nofun (by rw [h]; nofun)
  · exact Iff.rfl

theorem State.cycling.caused (h : s.cycling t) (c : Cause) : s.cycling (t.caused c) :=
  ⟨State.kept_caused h.kept c, fun hc => h.busy ((State.caused_config_iff c t).mp hc),
    fun hd => absurd hd (t.caused_not_drain c)⟩

theorem State.cycling.moved (h : s.cycling t) {q : Queues} (hq : q.fits) (hu : u.line = { t.line with queues := q }) :
    s.cycling u := by
  have hrc : u.rc = t.rc := congrArg LineView.rc hu
  have moved := h.kept.moved h.busy hq
  rw [← hu] at moved
  exact ⟨moved, hrc ▸ h.busy, hrc ▸ h.drain⟩

theorem State.cycling.fits (h : s.cycling t) : t.queues.fits := h.kept.fits

end Cycling

theorem raiseCause_cycling {s : State} {e : Ev} (h : s.cycling e.s) (c : Cause) : s.cycling (raiseCause c e).s := by
  rw [raiseCause_s]
  exact h.caused c

theorem continuity_cycling {s : State} {e : Ev} (h : s.cycling e.s) (m : Merge) (n : Word) :
    s.cycling (continuity m n e).s := by
  have noted : s.cycling { e.s with cycles := e.s.cycles.setLast n m } := h.of_line rfl
  rw [continuity]
  split
  · exact noted
  · exact raiseCause_cycling (noted.logging ..) _

theorem presenceAlert_cycling {α : Type} {s : State} {e : Ev} (h : s.cycling e.s) (m : Merge) (c : Collection)
    (serial : α → Serial) (key : α → TitleKey) (p : Presence α) : s.cycling (presenceAlert m c serial key p e).s := by
  cases p with
  | phantom => exact h.logging ..
  | lost x => exact h.logging ..
  | _ => exact h

theorem starveAlert_cycling {s : State} {e : Ev} (h : s.cycling e.s) (m : Merge) (c : Collection) (limit : Nat)
    (serial : Serial) (key : TitleKey) (w : Waiting) : s.cycling (starveAlert m c limit serial key w e).s := by
  unfold starveAlert
  split
  · exact h.logging ..
  · exact h

theorem doseAlert_cycling {s : State} {e : Ev} (h : s.cycling e.s) (b : Bool) (i : Fin 64) (x : BlockEntry) :
    s.cycling (doseAlert b i x e).s := by
  cases b with
  | false => exact h
  | true => exact h.logging ..

/-! ### Lengths -/

section Lengths
variable {α : Type} {wait : α → Waiting} {setWait : Waiting → α → α}

theorem reconcile_length_le (flag : Bool) (limit : Nat) (xs : List α) :
    (reconcile wait setWait flag limit xs).2.length ≤ xs.length := by
  cases xs with
  | nil => exact le_rfl
  | cons x xs =>
    rw [reconcile]
    dsimp only
    split_ifs
    · exact le_rfl
    · exact le_rfl
    · exact Nat.le_succ _

theorem starveHead_length (limit : Nat) (xs : List α) : (starveHead wait setWait limit xs).length = xs.length := by
  cases xs <;> rfl

theorem length_tail_le (xs : List α) : xs.tail.length ≤ xs.length := by
  rw [List.length_tail]
  exact Nat.sub_le ..

end Lengths

section Fits
variable {q : Queues}

theorem Queues.fits_bq (h : q.fits) {xs : List BlockEntry} (hx : xs.length ≤ q.bq.length) :
    Queues.fits { q with bq := xs } := ⟨hx.trans h.1, h.2⟩

theorem Queues.fits_cq (h : q.fits) {xs : List CaseEntry} (hx : xs.length ≤ q.cq.length) :
    Queues.fits { q with cq := xs } := ⟨h.1, hx.trans h.2.1, h.2.2⟩

theorem Queues.fits_jq (h : q.fits) {xs : List JacketEntry} (hx : xs.length ≤ q.jq.length) :
    Queues.fits { q with jq := xs } := ⟨h.1, h.2.1, hx.trans h.2.2.1, h.2.2.2⟩

theorem Queues.fits_tq (h : q.fits) {xs : List BookRecord} (hx : xs.length ≤ 4) : Queues.fits { q with tq := xs } :=
  ⟨h.1, h.2.1, h.2.2.1, hx, h.2.2.2.2⟩

theorem Queues.fits_aq (h : q.fits) {xs : List BookRecord} (hx : xs.length ≤ 8) : Queues.fits { q with aq := xs } :=
  ⟨h.1, h.2.1, h.2.2.1, h.2.2.2.1, hx⟩

theorem Queues.fits_pt (h : q.fits) (t : PressTrain) : Queues.fits { q with pt := t } := h

end Fits

/-! ### The end of a cycle -/

/-- A cycle that removes nothing from BQ, TQ, PT and AQ leaves a DRAIN as much to drain; one that does has completion
checked (R138). -/
theorem endCycle_held {s : State} {e : Ev} {before : Queues} {removed : Bool} {order : Message} {ys : List Tally}
    (hs : s.lineHeld) (h : s.cycling e.s)
    (hq : removed = false → e.s.queues.drained = true → s.queues.drained = true) :
    (endCycle before removed order ys e).s.lineHeld := by
  have counted : (countTallies ys e).s.line.kept := State.kept_of_line h.kept rfl
  refine computeLevels_held before ?_
  cases removed with
  | true => exact checkDrain_line (handAll_induct (P := fun x => x.line.kept) (fun m _ hx => hand_kept m hx) _
      (hand_kept order counted))
  | false =>
    have draining : (countTallies ys e).s.lineHeld := ⟨counted, fun hd hdrained => hs.2 (h.drain hd) (hq rfl hdrained)⟩
    exact handAll_induct (P := State.lineHeld) (fun m _ hx => hand_held m hx) _ (hand_held order draining)

/-! ### The casing cycle -/

theorem reconcileBq_cycling {s : State} {e : Ev} (h : s.cycling e.s) (flag : Bool) : s.cycling (reconcileBq flag e).2.s :=
  presenceAlert_cycling (h.moved (u := (setBq _ e).s) (Queues.fits_bq h.fits (reconcile_length_le ..)) rfl) ..

theorem reconcileCq_cycling {s : State} {e : Ev} (h : s.cycling e.s) (flag : Bool) : s.cycling (reconcileCq flag e).2.s :=
  presenceAlert_cycling (h.moved (u := (setCq _ e).s) (Queues.fits_cq h.fits (reconcile_length_le ..)) rfl) ..

theorem joinTransfer_cycling {s : State} {e : Ev} (h : s.cycling e.s) (r : BookRecord) :
    s.cycling (joinTransfer r e).2.s := by
  unfold joinTransfer
  split
  · next hroom =>
    refine h.moved (q := { e.s.queues with tq := e.s.queues.tq ++ [r] }) (Queues.fits_tq h.fits ?_) rfl
    rw [List.length_append, List.length_singleton]
    exact hroom
  · exact raiseCause_cycling (h.logging ..) _

theorem casingMatch_cycling {s : State} {e : Ev} (h : s.cycling e.s) (b : BlockEntry) (c : CaseEntry) (d : TitleData) :
    s.cycling (casingMatch b c d e).2.s := by
  have taken : s.cycling { e.s with
      dose := (e.s.dose.dose d).unit
      queues := { e.s.queues with bq := e.s.queues.bq.tail, cq := e.s.queues.cq.tail } } :=
    h.moved (Queues.fits_cq (Queues.fits_bq h.fits (length_tail_le _)) (length_tail_le _)) rfl
  exact joinTransfer_cycling (doseAlert_cycling (doseAlert_cycling (e := { e with s := _ }) taken ..) ..) _

theorem casingApply_cycling {s : State} {e : Ev} (h : s.cycling e.s) (l : Limits) {d : CasingCase}
    (hd : d.ofHeads e.s.queues) : s.cycling (casingApply l d e).2.s := by
  have blockGone := Queues.fits_bq h.fits (length_tail_le e.s.queues.bq)
  have caseGone := Queues.fits_cq h.fits (length_tail_le e.s.queues.cq)
  cases d with
  | flagged b => exact h.moved blockGone rfl
  | wrongCase c => exact h.moved caseGone rfl
  | noCase b => exact h.moved blockGone rfl
  | misfit b c =>
    have again : ({ b with fitFail := b.fitFail + 1 } :: e.s.queues.bq.tail).length ≤ e.s.queues.bq.length :=
      (congrArg List.length (List.cons_head?_tail (a := b) hd.1)).le
    exact h.moved (Queues.fits_cq (Queues.fits_bq h.fits again) (length_tail_le _)) rfl
  | misfitLimit b c => exact h.moved (Queues.fits_cq blockGone (length_tail_le _)) rfl
  | matched b c t => exact casingMatch_cycling h b c t
  | blockWaits b =>
    exact starveAlert_cycling (h.moved (u := (setBq _ e).s) (Queues.fits_bq h.fits (starveHead_length ..).le) rfl) ..
  | caseWaits c =>
    exact starveAlert_cycling (h.moved (u := (setCq _ e).s) (Queues.fits_cq h.fits (starveHead_length ..).le) rfl) ..
  | neither => exact h

/-- Behind BQ a casing cycle only adds (R71). -/
def Queues.adds (q r : Queues) : Prop := r.pt = q.pt ∧ r.aq = q.aq ∧ (r.tq = [] → q.tq = [])

theorem Queues.adds_of_eq {q r u : Queues} (h : r = u) (hu : q.adds u) : q.adds r := h ▸ hu

theorem Queues.adds.trans {q r u : Queues} (h : q.adds r) (k : r.adds u) : q.adds u :=
  ⟨k.1.trans h.1, k.2.1.trans h.2.1, fun hu => h.2.2 (k.2.2 hu)⟩

theorem joinTransfer_adds (r : BookRecord) (e : Ev) : e.s.queues.adds (joinTransfer r e).2.s.queues := by
  unfold joinTransfer
  split
  · exact ⟨rfl, rfl, fun h => absurd h (by simp)⟩
  · have hq : (raiseCause .overflow (logAlert .queueOverflow Stage.casing.code r.serial r.key
        (BitVec.ofNat 16 Collection.tq.code) e)).s.queues = e.s.queues := congrArg Holdings.queues (raiseCause_holdings ..)
    exact Queues.adds_of_eq hq ⟨rfl, rfl, id⟩

theorem casingMatch_adds (b : BlockEntry) (c : CaseEntry) (d : TitleData) (e : Ev) :
    e.s.queues.adds (casingMatch b c d e).2.s.queues := by
  have alerts (b₁ b₂ : Bool) (i j : Fin 64) (x : Ev) :
      (doseAlert b₁ i b (doseAlert b₂ j b x)).s.queues = x.s.queues :=
    congrArg Holdings.queues ((doseAlert_holdings ..).trans (doseAlert_holdings ..))
  have joined (r : BookRecord) (x : Ev) (hx : x.s.queues.pt = e.s.queues.pt ∧ x.s.queues.aq = e.s.queues.aq
      ∧ x.s.queues.tq = e.s.queues.tq) : e.s.queues.adds (joinTransfer r x).2.s.queues := by
    obtain ⟨hpt, haq, htq⟩ := joinTransfer_adds r x
    exact ⟨hpt.trans hx.1, haq.trans hx.2.1, fun h => hx.2.2 ▸ htq h⟩
  refine joined _ _ ?_
  rw [alerts]
  exact ⟨rfl, rfl, rfl⟩

theorem casingApply_adds (l : Limits) (d : CasingCase) (e : Ev) : e.s.queues.adds (casingApply l d e).2.s.queues := by
  cases d with
  | matched b c t => exact casingMatch_adds b c t e
  | blockWaits b => exact Queues.adds_of_eq (congrArg Holdings.queues (starveAlert_holdings ..)) ⟨rfl, rfl, id⟩
  | caseWaits c => exact Queues.adds_of_eq (congrArg Holdings.queues (starveAlert_holdings ..)) ⟨rfl, rfl, id⟩
  | _ => exact ⟨rfl, rfl, id⟩

theorem reconcileBq_queues (flag : Bool) (e : Ev) :
    (reconcileBq flag e).2.s.queues = { e.s.queues with
      bq := (reconcile BlockEntry.wait BlockEntry.setWait flag e.s.limits.casingWait e.s.queues.bq).2 } :=
  congrArg Holdings.queues (presenceAlert_holdings ..)

theorem reconcileCq_queues (flag : Bool) (e : Ev) :
    (reconcileCq flag e).2.s.queues = { e.s.queues with
      cq := (reconcile CaseEntry.wait CaseEntry.setWait flag e.s.limits.casingWait e.s.queues.cq).2 } :=
  congrArg Holdings.queues (presenceAlert_holdings ..)

/-- A queue that has not lost an entry is empty only if it was. -/
theorem eq_nil_of_not_shorter {α : Type} {xs ys : List α} (h : decide (ys.length < xs.length) = false) (hy : ys = []) :
    xs = [] := by
  rw [decide_eq_false_iff_not, hy] at h
  exact List.eq_nil_of_length_eq_zero (Nat.eq_zero_of_not_pos h)

theorem continuity_queues (m : Merge) (n : Word) (e : Ev) : (continuity m n e).s.queues = e.s.queues :=
  congrArg Holdings.queues (continuity_holdings m n e)

/-- From the decision on, a casing cycle of state `s` keeps the invariant. -/
theorem casingDecided_held {s : State} {e : Ev} {pb : Presence BlockEntry} {pc : Presence CaseEntry} {order : Message}
    {ys : List Tally} (hs : s.lineHeld) (h : s.cycling e.s) (hq : s.queues.adds e.s.queues)
    (hb : ∀ b, pb.head = some b → e.s.queues.bq.head? = some b)
    (hc : ∀ c, pc.head = some c → e.s.queues.cq.head? = some c) :
    let x := (casingApply e.s.limits (casingCase e.s.limits e.s.queues.cq.tail pb.head pc.head) e).2
    (endCycle s.queues (decide (x.s.queues.bq.length < s.queues.bq.length)) order ys x).s.lineHeld := by
  refine endCycle_held hs (casingApply_cycling h _ (casingCase_ofHeads _ _ hb hc)) fun hkept hdrained => ?_
  obtain ⟨hb, ht, ha, hp⟩ := (Queues.drained_iff _).mp hdrained
  obtain ⟨hpt, haq, htq⟩ := hq.trans (casingApply_adds ..)
  exact (Queues.drained_iff _).mpr ⟨eq_nil_of_not_shorter hkept hb, htq ht, haq.symm.trans ha, hpt.symm.trans hp⟩

theorem casingCycle_held (n : Word) (block caseFlag : Bool) {e : Ev} (h : e.s.lineHeld) (hrc : e.s.rc.state ≠ .config) :
    (casingCycle n block caseFlag e).s.lineHeld := by
  have started : e.s.cycling (continuity .casing n (advanceStamp e)).s :=
    continuity_cycling (e := advanceStamp e) ((State.cycling.mk h.1 hrc id).of_line rfl) ..
  have added : e.s.queues.adds
      (reconcileCq caseFlag (reconcileBq block (continuity .casing n (advanceStamp e))).2).2.s.queues := by
    rw [reconcileCq_queues, reconcileBq_queues, continuity_queues]
    exact ⟨rfl, rfl, id⟩
  exact casingDecided_held h (reconcileCq_cycling (reconcileBq_cycling started block) caseFlag) added
    (fun b hb => (congrArg List.head? (reconcileCq_bq caseFlag _)).trans (reconcileBq_head hb))
    fun c hc => reconcileCq_head hc

/-! ### The press index -/

theorem reconcileTq_cycling {s : State} {e : Ev} (h : s.cycling e.s) (flag : Bool) : s.cycling (reconcileTq flag e).2.s :=
  presenceAlert_cycling (h.moved (u := (setTq _ e).s) (Queues.fits_tq h.fits ((reconcile_length_le ..).trans
    h.fits.2.2.2.1)) rfl) ..

theorem outfeed_cycling {s : State} {e : Ev} (h : s.cycling e.s) : s.cycling (outfeed e).2.s := by
  unfold outfeed
  split
  · exact h
  · next r _ =>
    have emptied : s.cycling (setPt { e.s.queues.pt with p6 := none } e).s := h.moved (Queues.fits_pt h.fits _) rfl
    dsimp only
    split
    · next hroom =>
      refine emptied.moved (u := (setAq _ (setPt _ e)).s) (Queues.fits_aq emptied.fits ?_) rfl
      rw [List.length_append, List.length_singleton]
      exact hroom
    · exact raiseCause_cycling (emptied.logging ..) _

theorem shift_cycling {s : State} {e : Ev} (h : s.cycling e.s) (p : Presence BookRecord) : s.cycling (shift p e).s := by
  have shifted (t : PressTrain) : s.cycling (setPt t e).s := h.moved (Queues.fits_pt h.fits t) rfl
  rw [shift]
  split
  · exact (shifted _).moved (u := (setTq _ (setPt _ e)).s)
      (Queues.fits_tq (shifted _).fits ((length_tail_le _).trans (shifted _).fits.2.2.2.1)) rfl
  · exact shifted _

theorem markSuspects_cycling {s : State} {e : Ev} (h : s.cycling e.s) : s.cycling (markSuspects e).s :=
  h.moved (Queues.fits_pt h.fits _) rfl

theorem advanceStale_cycling {s : State} {e : Ev} (h : s.cycling e.s) : s.cycling (advanceStale e).s := by
  have bank (b : IronBank) {x : Ev} (hx : s.cycling x.s) : s.cycling (advanceBank b x).s := by
    have advanced : s.cycling { x.s with iron := x.s.iron.setBank ((x.s.iron.bank b).advance x.s.limits.stale) b } :=
      hx.of_line rfl
    unfold advanceBank
    dsimp only
    split
    · exact advanced
    · exact advanced.logging ..
  exact bank .rear (bank .forward h)

theorem reconcileTq_queues (flag : Bool) (e : Ev) :
    (reconcileTq flag e).2.s.queues = { e.s.queues with
      tq := (reconcile BookRecord.wait BookRecord.setWait flag e.s.limits.pressWait e.s.queues.tq).2 } :=
  congrArg Holdings.queues (presenceAlert_holdings ..)

/-- What BQ and AQ hold behind the outfeed (R83). -/
theorem outfeed_adds (e : Ev) :
    (outfeed e).2.s.queues.bq = e.s.queues.bq ∧ ((outfeed e).2.s.queues.aq = [] → e.s.queues.aq = [])
      ∧ (e.s.queues.pt.p6 = none → (outfeed e).2.s.queues.pt = e.s.queues.pt) := by
  unfold outfeed
  split
  · exact ⟨rfl, id, fun _ => rfl⟩
  · next r hr =>
    have held : e.s.queues.pt.p6 ≠ none := by
      rw [hr]
      exact Option.some_ne_none r
    dsimp only
    split
    · exact ⟨rfl, fun h => absurd h (by simp [setAq]), fun h => absurd h held⟩
    · have raised (x : Ev) : (raiseCause .overflow x).s.queues = x.s.queues :=
        congrArg Holdings.queues (raiseCause_holdings ..)
      rw [raised]
      exact ⟨rfl, id, fun h => absurd h held⟩

theorem shift_queues (p : Presence BookRecord) (e : Ev) :
    (shift p e).s.queues = { e.s.queues with
      tq := if p.head.isSome then e.s.queues.tq.tail else e.s.queues.tq
      pt := ⟨infeed p, e.s.queues.pt.p1, e.s.queues.pt.p2, e.s.queues.pt.p3, e.s.queues.pt.p4, e.s.queues.pt.p5⟩ } := by
  rw [shift]
  split <;> rfl

theorem markPosition_eq_none {s : State} {entry : Profile → ProfileEntry} {b : IronBank} {p : Option BookRecord}
    (h : markPosition s entry b p = none) : p = none := by
  cases p with
  | none => rfl
  | some r => cases h

/-- A train that ends empty after its shift held nothing at positions 1 to 5. -/
theorem markSuspects_shift_pt {p : Presence BookRecord} {e : Ev}
    (h : (markSuspects (shift p e)).s.queues.pt = ⟨none, none, none, none, none, none⟩) (h6 : e.s.queues.pt.p6 = none) :
    e.s.queues.pt = ⟨none, none, none, none, none, none⟩ := by
  obtain ⟨-, h2, h3, h4, h5, h6'⟩ := PressTrain.mk.inj h
  have hshift := congrArg Queues.pt (shift_queues p e)
  have e1 := markPosition_eq_none h2
  have e2 := markPosition_eq_none h3
  have e3 := markPosition_eq_none h4
  have e4 := markPosition_eq_none h5
  have e5 := markPosition_eq_none h6'
  rw [hshift] at e1 e2 e3 e4 e5
  cases hpt : e.s.queues.pt
  rw [hpt] at e1 e2 e3 e4 e5 h6
  exact PressTrain.mk.injEq .. |>.mpr ⟨e1, e2, e3, e4, e5, h6⟩

theorem pressIndex_held (n : Word) (flag : Bool) {e : Ev} (h : e.s.lineHeld) (hrc : e.s.rc.state ≠ .config) :
    (pressIndex n flag e).s.lineHeld := by
  have started : e.s.cycling (continuity .press n e).s := continuity_cycling (State.cycling.mk h.1 hrc id) ..
  have moved := advanceStale_cycling (markSuspects_cycling (shift_cycling (outfeed_cycling
    (reconcileTq_cycling started flag)) (reconcileTq flag (continuity .press n e)).1))
  refine endCycle_held h moved fun hkept hdrained => ?_
  obtain ⟨hlen, hp6⟩ := Bool.or_eq_false_iff.mp hkept
  have hbefore : e.s.queues.pt.p6 = none := by simpa using hp6
  have hreconciled : (reconcileTq flag (continuity .press n e)).2.s.queues.bq = e.s.queues.bq
      ∧ (reconcileTq flag (continuity .press n e)).2.s.queues.aq = e.s.queues.aq
      ∧ (reconcileTq flag (continuity .press n e)).2.s.queues.pt = e.s.queues.pt := by
    rw [reconcileTq_queues, continuity_queues]
    exact ⟨rfl, rfl, rfl⟩
  obtain ⟨hbq₀, haq₀, hpt₀⟩ := hreconciled
  obtain ⟨hbq, haq, hpt⟩ := outfeed_adds (reconcileTq flag (continuity .press n e)).2
  have hstale : ∀ x : Ev, (advanceStale x).s.queues = x.s.queues := fun x =>
    congrArg Holdings.queues (advanceStale_holdings x)
  have hshifted := shift_queues (reconcileTq flag (continuity .press n e)).1
    (outfeed (reconcileTq flag (continuity .press n e)).2).2
  rw [hstale] at hdrained hlen
  obtain ⟨hb, ht, ha, hp⟩ := (Queues.drained_iff _).mp hdrained
  have hfed : (outfeed (reconcileTq flag (continuity .press n e)).2).2.s.queues.pt = e.s.queues.pt :=
    (hpt ((congrArg PressTrain.p6 hpt₀).trans hbefore)).trans hpt₀
  refine (Queues.drained_iff _).mpr ⟨?_, eq_nil_of_not_shorter hlen ht, ?_, ?_⟩
  · exact hbq₀.symm.trans (hbq.symm.trans ((congrArg Queues.bq hshifted).symm.trans hb))
  · exact haq₀.symm.trans (haq ((congrArg Queues.aq hshifted).symm.trans ha))
  · have hempty := markSuspects_shift_pt hp (hfed ▸ hbefore)
    exact hfed.symm.trans hempty

/-! ### The jacket cycle -/

theorem reconcileAq_cycling {s : State} {e : Ev} (h : s.cycling e.s) (flag : Bool) : s.cycling (reconcileAq flag e).2.s :=
  presenceAlert_cycling (h.moved (u := (setAq _ e).s) (Queues.fits_aq h.fits ((reconcile_length_le ..).trans
    h.fits.2.2.2.2)) rfl) ..

theorem reconcileJq_cycling {s : State} {e : Ev} (h : s.cycling e.s) (flag : Bool) : s.cycling (reconcileJq flag e).2.s :=
  presenceAlert_cycling (h.moved (u := (setJq _ e).s) (Queues.fits_jq h.fits (reconcile_length_le ..)) rfl) ..

theorem passBook_line (k : BookRecord) (without : Bool) (action : JacketAction) (more : List Tally) (e : Ev) :
    (passBook k without action more e).2.s.line = (setAq e.s.queues.aq.tail e).s.line := by
  simp only [passBook, routeBook]
  split_ifs <;> rfl

theorem passBook_cycling {s : State} {e : Ev} (h : s.cycling e.s) (k : BookRecord) (without : Bool) (action : JacketAction)
    (more : List Tally) : s.cycling (passBook k without action more e).2.s :=
  (h.moved (u := (setAq e.s.queues.aq.tail e).s)
    (Queues.fits_aq h.fits ((length_tail_le _).trans h.fits.2.2.2.2)) rfl).of_line (passBook_line ..)

theorem jacketApply_cycling {s : State} {e : Ev} (h : s.cycling e.s) (l : Limits) (d : JacketCase) :
    s.cycling (jacketApply l d e).2.s := by
  have ejected : s.cycling (setJq e.s.queues.jq.tail e).s := h.moved (Queues.fits_jq h.fits (length_tail_le _)) rfl
  cases d with
  | unjacketed k => exact passBook_cycling h ..
  | wrongJacket j => exact ejected
  | noJacket k => exact passBook_cycling h ..
  | apply k j => exact passBook_cycling ejected ..
  | bookWaits k =>
    exact starveAlert_cycling (h.moved (u := (setAq _ e).s) (Queues.fits_aq h.fits
      ((starveHead_length ..).le.trans h.fits.2.2.2.2)) rfl) ..
  | jacketWaits j =>
    exact starveAlert_cycling (h.moved (u := (setJq _ e).s) (Queues.fits_jq h.fits (starveHead_length ..).le) rfl) ..
  | neither => exact h

/-- A jacket cycle leaves BQ, TQ and PT alone. -/
def Queues.upstreamKept (q r : Queues) : Prop := r.bq = q.bq ∧ r.tq = q.tq ∧ r.pt = q.pt

theorem Queues.upstreamKept_of_eq {q r u : Queues} (h : r = u) (hu : q.upstreamKept u) : q.upstreamKept r := h ▸ hu

theorem jacketApply_upstream (l : Limits) (d : JacketCase) (e : Ev) :
    e.s.queues.upstreamKept (jacketApply l d e).2.s.queues := by
  have passed {x : Ev} (hx : e.s.queues.upstreamKept x.s.queues) (k : BookRecord) (without : Bool) (action : JacketAction)
      (more : List Tally) : e.s.queues.upstreamKept (passBook k without action more x).2.s.queues :=
    Queues.upstreamKept_of_eq (congrArg LineView.queues (passBook_line ..)) hx
  cases d with
  | unjacketed k => exact passed ⟨rfl, rfl, rfl⟩ ..
  | noJacket k => exact passed ⟨rfl, rfl, rfl⟩ ..
  | apply k j => exact passed (x := setJq e.s.queues.jq.tail e) ⟨rfl, rfl, rfl⟩ ..
  | bookWaits k =>
    exact Queues.upstreamKept_of_eq (congrArg Holdings.queues (starveAlert_holdings ..)) ⟨rfl, rfl, rfl⟩
  | jacketWaits j =>
    exact Queues.upstreamKept_of_eq (congrArg Holdings.queues (starveAlert_holdings ..)) ⟨rfl, rfl, rfl⟩
  | _ => exact ⟨rfl, rfl, rfl⟩

theorem reconcileAq_queues (flag : Bool) (e : Ev) :
    (reconcileAq flag e).2.s.queues = { e.s.queues with
      aq := (reconcile BookRecord.wait BookRecord.setWait flag e.s.limits.jacketWait e.s.queues.aq).2 } :=
  congrArg Holdings.queues (presenceAlert_holdings ..)

theorem reconcileJq_queues (flag : Bool) (e : Ev) :
    (reconcileJq flag e).2.s.queues = { e.s.queues with
      jq := (reconcile JacketEntry.wait JacketEntry.setWait flag e.s.limits.jacketWait e.s.queues.jq).2 } :=
  congrArg Holdings.queues (presenceAlert_holdings ..)

/-- From the decision on, a jacket cycle of state `s` keeps the invariant. -/
theorem jacketDecided_held {s : State} {e : Ev} {l : Limits} {d : JacketCase} {order : Message} {ys : List Tally}
    (hs : s.lineHeld) (h : s.cycling e.s) (hq : s.queues.upstreamKept e.s.queues) :
    let x := (jacketApply l d e).2
    (endCycle s.queues (decide (x.s.queues.aq.length < s.queues.aq.length)) order ys x).s.lineHeld := by
  refine endCycle_held hs (jacketApply_cycling h ..) fun hkept hdrained => ?_
  obtain ⟨hb, ht, ha, hp⟩ := (Queues.drained_iff _).mp hdrained
  obtain ⟨hbq, htq, hpt⟩ := jacketApply_upstream l d e
  obtain ⟨hbq', htq', hpt'⟩ := hq
  exact (Queues.drained_iff _).mpr ⟨hbq'.symm.trans (hbq.symm.trans hb), htq'.symm.trans (htq.symm.trans ht),
    eq_nil_of_not_shorter hkept ha, hpt'.symm.trans (hpt.symm.trans hp)⟩

theorem jacketCycle_held (n : Word) (book jacketFlag : Bool) {e : Ev} (h : e.s.lineHeld) (hrc : e.s.rc.state ≠ .config) :
    (jacketCycle n book jacketFlag e).s.lineHeld := by
  have started : e.s.cycling (continuity .jacketer n e).s := continuity_cycling (State.cycling.mk h.1 hrc id) ..
  have kept : e.s.queues.upstreamKept
      (reconcileJq jacketFlag (reconcileAq book (continuity .jacketer n e)).2).2.s.queues := by
    rw [reconcileJq_queues, reconcileAq_queues, continuity_queues]
    exact ⟨rfl, rfl, rfl⟩
  exact jacketDecided_held h (reconcileJq_cycling (reconcileAq_cycling started book) jacketFlag) kept

theorem cycle_held (src : Node) (p : List Byte) {e : Ev} (h : e.s.lineHeld) : (cycle src p e).s.lineHeld := by
  rw [cycle]
  split
  · exact h
  · next hrc =>
    split
    · exact logAlert_held h ..
    case h_2 m _ =>
      split
      · cases m with
        | casing => exact casingCycle_held _ _ _ h hrc
        | press => exact pressIndex_held _ _ h hrc
        | jacketer => exact jacketCycle_held _ _ _ h hrc
      · exact logAlert_held h ..

end Sys2Proof.Machine
end

section
/-! SUPPORT. The invariant of the line over every command: sightings, requests, writes, the link and power-on. -/

namespace Sys2Proof.Machine

theorem answer_held {e : Ev} (h : e.s.lineHeld) (tag : Byte) (st : Status) (r : Reason) : (answer tag st r e).s.lineHeld :=
  hand_held _ h

theorem respond_held {e : Ev} (h : e.s.lineHeld) (tag : Byte) (st : Status) (p : List Byte) :
    (respond tag st p e).s.lineHeld := hand_held _ h

theorem handAll_held (ms : List Message) {e : Ev} (h : e.s.lineHeld) : (handAll ms e).s.lineHeld :=
  handAll_induct (P := State.lineHeld) (fun m _ hx => hand_held m hx) ms h

/-! ### Sightings -/

/-- An entry that joins a queue leaves a DRAIN as much to drain (R44, R45, R46). -/
theorem enqueue_held {q : Queues} {item : ItemType} {e : Ev} (h : e.s.lineHeld) (hrc : e.s.rc.state ≠ .config)
    (hq : q.fits) (hd : q.drained = true → e.s.queues.drained = true) : (enqueue q item e).s.lineHeld :=
  ⟨h.1.moved hrc hq, fun hdrain hdrained => h.2 hdrain (hd hdrained)⟩

theorem blockAlert_held {e : Ev} (h : e.s.lineHeld) (b : BlockEntry) : (blockAlert b e).s.lineHeld := by
  unfold blockAlert
  split_ifs
  · exact logAlert_held h ..
  · exact logAlert_held h ..
  · exact logAlert_held h ..
  · exact h

theorem blockAlert_rc (b : BlockEntry) (e : Ev) : (blockAlert b e).s.rc = e.s.rc := by
  unfold blockAlert
  split_ifs <;> rfl

theorem sightOverflow_held {e : Ev} (h : e.s.lineHeld) (role : Byte) (serial : Serial) (key : TitleKey) (c : Collection) :
    (sightOverflow role serial key c e).s.lineHeld := raiseCause_held (logAlert_held h ..) _

theorem length_snoc_le {α : Type} {xs : List α} {n : Nat} (h : xs.length < n) (x : α) : (xs ++ [x]).length ≤ n := by
  rw [List.length_append, List.length_singleton]
  exact h

theorem sightBlock_held_line {p : List Byte} {e : Ev} (h : e.s.lineHeld) (hrc : e.s.rc.state ≠ .config) :
    (sightBlock p e).s.lineHeld := by
  rw [sightBlock]
  split
  · split
    · exact h
    · exact logAlert_held h ..
  · split
    · next hroom =>
      refine computeLevels_held _ (enqueue_held (blockAlert_held h _) (by rwa [blockAlert_rc])
        ⟨length_snoc_le hroom _, h.1.fits.2⟩ fun hdrained => ?_)
      exact absurd ((Queues.drained_iff _).mp hdrained).1 (by simp)
    · exact sightOverflow_held h ..

theorem sightCase_held_line {p : List Byte} {e : Ev} (h : e.s.lineHeld) (hrc : e.s.rc.state ≠ .config) :
    (sightCase p e).s.lineHeld := by
  rw [sightCase]
  split
  · split
    · exact h
    · exact logAlert_held h ..
  · split
    · next hroom =>
      exact computeLevels_held _ (enqueue_held h hrc ⟨h.1.fits.1, length_snoc_le hroom _, h.1.fits.2.2⟩ id)
    · exact sightOverflow_held h ..

theorem sightJacket_held_line {p : List Byte} {e : Ev} (h : e.s.lineHeld) (hrc : e.s.rc.state ≠ .config) :
    (sightJacket p e).s.lineHeld := by
  rw [sightJacket]
  split
  · split
    · exact h
    · exact logAlert_held h ..
  · split
    · next hroom =>
      exact computeLevels_held _ (enqueue_held h hrc
        ⟨h.1.fits.1, h.1.fits.2.1, length_snoc_le hroom _, h.1.fits.2.2.2⟩ id)
    · exact sightOverflow_held h ..

theorem sight_held (src : Node) (p : List Byte) {e : Ev} (h : e.s.lineHeld) : (sight src p e).s.lineHeld := by
  rw [sight]
  split
  · exact h
  · next hrc =>
    split
    · exact logAlert_held h ..
    · split
      · split_ifs
        · exact sightBlock_held_line h hrc
        · exact sightCase_held_line h hrc
        · exact sightJacket_held_line h hrc
      · exact logAlert_held h ..

/-! ### Readings and marks -/

theorem sense_held (src : Node) (p : List Byte) {e : Ev} (h : e.s.lineHeld) : (sense src p e).s.lineHeld := by
  have one (i : Fin 4) (v : Int) {x : Ev} (hx : x.s.lineHeld) : (senseComparator i v x).s.lineHeld := by
    have read : State.lineHeld { x.s with iron := { x.s.iron with
        comparators := x.s.iron.comparators.set i ((x.s.iron.comparators.get i).read v) } } :=
      State.lineHeld_of_line hx rfl
    unfold senseComparator
    dsimp only
    split
    · exact read
    · exact State.lineHeld_logging read ..
  have all (is : List (Fin 4)) (v : Int) {x : Ev} (hx : x.s.lineHeld) : (senseComparators is v x).s.lineHeld := by
    induction is generalizing x with
    | nil => exact hx
    | cons i is ih => exact ih (one i v hx)
  have rejected : (senseRejected src e).s.lineHeld := by
    unfold senseRejected
    split
    · exact h
    · exact logAlert_held h ..
  unfold sense
  split
  · exact rejected
  case h_2 b _ =>
    split
    · exact State.lineHeld_of_line (all (comparatorsOf b) (clampInt (-400) 3000 (intAt2 p 1)) h) rfl
    · exact rejected

theorem mark_held (src : Node) (p : List Byte) {e : Ev} (h : e.s.lineHeld) : (mark src p e).s.lineHeld := by
  have marked (d : DoseUnit) (t : TitleTable) : State.lineHeld { e.s with dose := d, titles := t } :=
    State.lineHeld_of_line h rfl
  unfold mark
  split
  · dsimp only
    split
    · exact State.lineHeld_logging (marked ..) ..
    · exact marked ..
  · exact h

/-! ### Requests -/

/-- An entry into RUN, or into DRAIN from where something is held, is one a request makes. -/
theorem State.lineHeld_run {s t : State} (h : s.lineHeld) (f : FeedLevels)
    (ht : t.line = { s.line with rc := ⟨.run, CauseSet.empty, .released⟩, feed := f }) : t.lineHeld := by
  rw [State.lineHeld, ht]
  exact ⟨h.1.running f, nofun⟩

theorem ctrlStart_held (tag : Byte) {e : Ev} (h : e.s.lineHeld) : (ctrlStart tag e).s.lineHeld := by
  unfold ctrlStart
  split
  · exact answer_held h ..
  · split
    · exact answer_held h ..
    · exact answer_held (e := formComputed (startRun e)) (State.lineHeld_run h _ rfl) ..

theorem ctrlHalt_held (tag : Byte) {e : Ev} (h : e.s.lineHeld) : (ctrlHalt tag e).s.lineHeld := by
  unfold ctrlHalt
  split
  · exact answer_held (raiseCause_held h _) ..
  · exact answer_held h ..

theorem ctrlResume_held (tag : Byte) {e : Ev} (h : e.s.lineHeld) : (ctrlResume tag e).s.lineHeld := by
  unfold ctrlResume
  split
  · exact answer_held h ..
  · split
    · exact answer_held h ..
    · exact answer_held (e := formComputed (enterRun e)) (State.lineHeld_run h _ rfl) ..

theorem ctrlDrain_held (tag : Byte) {e : Ev} (h : e.s.lineHeld) : (ctrlDrain tag e).s.lineHeld := by
  have checked (before : Queues) {x : Ev} (hx : x.s.line.kept) :
      (computeLevels before (checkDrain (answer tag .ok .none x))).s.lineHeld :=
    computeLevels_held before (checkDrain_line (hand_kept _ hx))
  unfold ctrlDrain
  split
  · exact answer_held h ..
  · exact answer_held h ..
  · exact checked e.s.queues (x := formPauses (enterDrain e)) h.1.drained
  · next hst =>
    split
    · exact answer_held h ..
    · refine checked e.s.queues (x := enterDrain e) ?_
      have hpaused : e.s.line.feed = FeedLevels.paused := h.1.run.2.2.2 fun hr => absurd (hst.symm.trans hr) (by decide)
      have entered := h.1.drained
      rwa [← hpaused] at entered

theorem Queues.empty_fits : Queues.empty.fits := by
  refine ⟨?_, ?_, ?_, ?_, ?_⟩ <;> exact Nat.zero_le _

theorem Queues.empty_isEmpty : Queues.empty.isEmpty := ⟨rfl, rfl, rfl, rfl, rfl, rfl⟩

theorem ctrlAbort_held (tag : Byte) {e : Ev} (h : e.s.lineHeld) : (ctrlAbort tag e).s.lineHeld := by
  rw [ctrlAbort]
  split
  · exact answer_held h ..
  · next hhalt =>
    have hst : e.s.rc.state = .halt := not_not.mp hhalt
    have hpaused : e.s.line.feed = FeedLevels.paused := h.1.run.2.2.2 fun hr => absurd (hst.symm.trans hr) (by decide)
    have emptied := (((h.1.moved (fun hc => absurd (hst.symm.trans hc) (by decide)) Queues.empty_fits).logged
      ⟨.purged, 0, 0, 0, (purgeAll [.bq, .cq, .jq, .tq, .pt, .aq] e).2.s.cycles.stamp,
        BitVec.ofNat 16 (purgeAll [.bq, .cq, .jq, .tq, .pt, .aq] e).1.length⟩).configured Queues.empty_isEmpty hpaused)
    exact computeLevels_held _ (handAll_held _ (hand_held _ ⟨emptied, nofun⟩))

theorem Queues.clear_fits {q : Queues} (h : q.fits) (c : Collection) : (q.clear c).fits := by
  cases c with
  | bq => exact Queues.fits_bq h (Nat.zero_le _)
  | cq => exact Queues.fits_cq h (Nat.zero_le _)
  | jq => exact Queues.fits_jq h (Nat.zero_le _)
  | tq => exact Queues.fits_tq h (Nat.zero_le _)
  | pt => exact h
  | aq => exact Queues.fits_aq h (Nat.zero_le _)

theorem ctrlPurge_held (tag arg : Byte) {e : Ev} (h : e.s.lineHeld) : (ctrlPurge tag arg e).s.lineHeld := by
  rw [ctrlPurge]
  split
  · exact answer_held h ..
  case h_2 c _ =>
    split
    · exact answer_held h ..
    · next hhalt =>
      have hst : e.s.rc.state = .halt := not_not.mp hhalt
      have purged : (purgeOne c e).2.s.lineHeld :=
        ⟨h.1.moved (fun hc => absurd (hst.symm.trans hc) (by decide)) (Queues.clear_fits h.1.fits c),
          fun hd => absurd (hst.symm.trans hd) (by decide)⟩
      exact computeLevels_held _ (handAll_held _ (hand_held _ (logAlert_held purged ..)))

theorem ctrlClear_held (tag : Byte) {e : Ev} (h : e.s.lineHeld) : (ctrlClear tag e).s.lineHeld := by
  have cleared : State.lineHeld { e.s with totals := Totals.zero, ring := { e.s.ring with linkErrors := 0 } } :=
    ⟨{ h.1 with errors := Nat.zero_le _ }, h.2⟩
  exact hand_held _ cleared

/-- A line reset holds nothing, has no record and no cause, and its REPLY waits alone (R142, R143). -/
theorem ctrlReset_held (tag : Byte) {e : Ev} (h : e.s.lineHeld) : (ctrlReset tag e).s.lineHeld :=
  ⟨{ h.1 with
      run := RunControl.sound_config Queues.empty_isEmpty
      log := ⟨Nat.zero_le _, iff_of_false nofun (fun hn => hn rfl), nofun⟩
      fits := Queues.empty_fits
      outbound := Nat.le_add_left 1 31 }, nofun⟩

/-- An answer about what lies outside the line. -/
theorem answer_outside {e x : Ev} (h : e.s.lineHeld) (hx : x.s.line = e.s.line) (tag : Byte) (st : Status) (r : Reason) :
    (answer tag st r x).s.lineHeld := answer_held (State.lineHeld_of_line h hx) ..

theorem ctrlArm_held (tag : Byte) {e : Ev} (h : e.s.lineHeld) : (ctrlArm tag e).s.lineHeld := by
  unfold ctrlArm
  split
  · exact answer_outside h (by rfl) tag .ok .none
  · exact answer_held h ..

theorem ctrlDisarm_held (tag : Byte) {e : Ev} (h : e.s.lineHeld) : (ctrlDisarm tag e).s.lineHeld := by
  unfold ctrlDisarm
  exact answer_outside h (by rfl) tag .ok .none

theorem ctrlCopy_held (tag : Byte) {e : Ev} (h : e.s.lineHeld) : (ctrlCopy tag e).s.lineHeld := by
  unfold ctrlCopy
  split
  · exact answer_outside h (by rfl) tag .ok .none
  · exact answer_held h ..

theorem ctrlStore_held (tag : Byte) {e : Ev} (h : e.s.lineHeld) : (ctrlStore tag e).s.lineHeld := by
  unfold ctrlStore
  split_ifs
  · exact answer_held h ..
  · exact answer_held h ..
  · exact answer_outside h (by rfl) tag .ok .none

theorem ctrlProof_held (tag : Byte) {e : Ev} (h : e.s.lineHeld) : (ctrlProof tag e).s.lineHeld := by
  unfold ctrlProof
  split_ifs
  · exact answer_held h ..
  · exact answer_held h ..
  · exact answer_held h ..
  · exact handAll_held _ (answer_outside h (by rfl) tag .ok .none)

theorem ctrlRequest_held (r : Request) (tag arg : Byte) {e : Ev} (h : e.s.lineHeld) :
    (ctrlRequest r tag arg e).s.lineHeld := by
  cases r with
  | start => exact ctrlStart_held tag h
  | halt => exact ctrlHalt_held tag h
  | resume => exact ctrlResume_held tag h
  | drain => exact ctrlDrain_held tag h
  | abort => exact ctrlAbort_held tag h
  | purge => exact ctrlPurge_held tag arg h
  | clear => exact ctrlClear_held tag h
  | reset => exact ctrlReset_held tag h
  | arm => exact ctrlArm_held tag h
  | disarm => exact ctrlDisarm_held tag h
  | copy => exact ctrlCopy_held tag h
  | store => exact ctrlStore_held tag h
  | proof => exact ctrlProof_held tag h

theorem ctrl_held (tag : Byte) (p : List Byte) {e : Ev} (h : e.s.lineHeld) : (ctrl tag p e).s.lineHeld := by
  unfold ctrl
  split
  · exact answer_held h ..
  · split
    · exact answer_held h ..
    · exact ctrlRequest_held _ tag _ h

/-! ### Writes and reads -/

/-- A region's write concerns its settings alone. -/
def writesLine (f : List Byte → State → Written) : Prop := ∀ (p : List Byte) (s : State), (f p s).2.line = s.line

theorem writeRegion_held {f : List Byte → State → Written} (hf : writesLine f) (tag : Byte) (p : List Byte) {e : Ev}
    (h : e.s.lineHeld) : (writeRegion f tag p e).s.lineHeld :=
  respond_held (e := { e with s := _ }) (State.lineHeld_of_line h (hf p e.s)) ..

theorem writeTitle_line : writesLine writeTitle := fun p s => by
  unfold writeTitle
  split
  · rfl
  · split
    · rfl
    · split_ifs <;> rfl

theorem writeDose_line : writesLine writeDose := fun p s => by
  unfold writeDose
  split
  · rfl
  · split
    · rfl
    · split_ifs <;> rfl

theorem writeProfile_line : writesLine writeProfile := fun p s => by
  unfold writeProfile
  split
  · rfl
  · split
    · rfl
    · split_ifs <;> rfl

theorem writeCalibration_line : writesLine writeCalibration := fun p s => by
  unfold writeCalibration
  split_ifs <;> rfl

theorem writeLimits_line : writesLine writeLimits := fun p s => by
  unfold writeLimits
  split_ifs <;> rfl

theorem writeLinemap_line : writesLine writeLinemap := fun p s => by
  unfold writeLinemap
  split_ifs <;> rfl

theorem writeNode_line : writesLine writeNode := fun p s => by
  unfold writeNode
  split_ifs <;> rfl

theorem writeProtect_line : writesLine writeProtect := fun p s => by
  unfold writeProtect
  split_ifs <;> rfl

theorem writeComparators_held (i : Nat) (cs : List ComparatorConfig) {e : Ev} (h : e.s.lineHeld) :
    (writeComparators i cs e).s.lineHeld := by
  induction cs generalizing i e with
  | nil => exact h
  | cons c cs ih =>
    refine ih (i + 1) ?_
    split
    · exact logAlert_held (e := { e with s := _ }) (State.lineHeld_of_line h rfl) ..
    · exact State.lineHeld_of_line h rfl

theorem writeTo_held (r : Region) (tag : Byte) (p : List Byte) {e : Ev} (h : e.s.lineHeld) :
    (writeTo r tag p e).s.lineHeld := by
  cases r with
  | title => exact writeRegion_held writeTitle_line tag p h
  | dose => exact writeRegion_held writeDose_line tag p h
  | profile => exact writeRegion_held writeProfile_line tag p h
  | calibration => exact writeRegion_held writeCalibration_line tag p h
  | limits => exact writeRegion_held writeLimits_line tag p h
  | linemap => exact writeRegion_held writeLinemap_line tag p h
  | node => exact writeRegion_held writeNode_line tag p h
  | protect => exact writeRegion_held writeProtect_line tag p h
  | comparator => exact respond_held (writeComparators_held _ _ h) ..
  | _ => exact respond_held h ..

theorem write_held (tag : Byte) (p : List Byte) {e : Ev} (h : e.s.lineHeld) : (write tag p e).s.lineHeld := by
  unfold write
  split
  · exact respond_held h ..
  · split
    · exact respond_held h ..
    · exact writeTo_held _ tag p h

theorem Management.sound_removed {mu : Management} (h : mu.sound) (n : Nat) : (mu.removed n).sound := by
  obtain ⟨hlen, hattn, hover⟩ := h
  unfold Management.removed
  split
  · exact ⟨Nat.zero_le _, iff_of_false nofun (fun hn => hn rfl), nofun⟩
  · next hleft =>
    have hheld : mu.log ≠ [] := fun hnil => hleft (by rw [hnil, List.drop_nil])
    refine ⟨?_, iff_of_true (hattn.mpr hheld) hleft, fun _ => hleft⟩
    rw [List.length_drop]
    exact (Nat.sub_le _ _).trans hlen

theorem read_held (tag : Byte) (p : List Byte) {e : Ev} (h : e.s.lineHeld) : (read tag p e).s.lineHeld := by
  unfold read
  split
  · exact respond_held h ..
  · split
    · exact respond_held h ..
    · refine hand_held (e := { e with s := _ }) _ ?_
      unfold afterRead
      split
      · exact ⟨{ h.1 with log := Management.sound_removed h.1.log _ }, h.2⟩
      · exact h

/-! ### The link and the ring -/

theorem forward_held (m : Message) {e : Ev} (h : e.s.lineHeld) : (forward m e).s.lineHeld := by
  unfold forward
  split
  · next hroom => exact ⟨{ h.1 with forward := length_snoc_le hroom m }, h.2⟩
  · exact ⟨{ h.1 with errors := Nat.min_le_left .. }, h.2⟩

/-- A link that is not UP bounds no count (R148). -/
theorem setLink_held {e : Ev} (h : e.s.lineHeld) {l : LinkState} (hl : l ≠ .up) :
    (setRing { e.s.ring with link := l } e).s.lineHeld :=
  ⟨{ h.1 with up := fun hup => absurd hup hl }, h.2⟩

theorem leaveUp_held {e : Ev} (h : e.s.lineHeld) {l : LinkState} (hl : l ≠ .up) : (leaveUp l e).s.lineHeld :=
  raiseCause_held (logAlert_held (setLink_held h hl) ..) _

theorem found_held {e : Ev} (h : e.s.lineHeld) : (setRing e.s.ring.found e).s.lineHeld := by
  unfold RingPort.found
  split
  · exact setLink_held h nofun
  · exact h

theorem carrierGone_held {e : Ev} (h : e.s.lineHeld) : (carrierGone e).s.lineHeld := by
  unfold carrierGone
  split
  · exact h
  · exact setLink_held h nofun
  · exact leaveUp_held h nofun

/-- A bad message is counted; the eighth in a row takes the link out of UP (R147, R148). -/
theorem badReceived_held {e : Ev} (h : e.s.lineHeld) : (badReceived e).s.lineHeld := by
  have counted (hup : e.s.ring.link = .up → e.s.ring.countedBad.consecBad ≤ 7) :
      (setRing e.s.ring.countedBad e).s.lineHeld :=
    ⟨{ h.1 with bad := Nat.min_le_left .., up := hup, errors := Nat.min_le_left .. }, h.2⟩
  rw [badReceived_eq]
  split
  · have lost : (setRing { e.s.ring.countedBad with link := .acquiring } e).s.lineHeld :=
      ⟨{ h.1 with bad := Nat.min_le_left .., up := nofun, errors := Nat.min_le_left .. }, h.2⟩
    exact raiseCause_held (logAlert_held (e := setRing { e.s.ring.countedBad with link := .acquiring } e) lost ..) _
  · next hlimit =>
    refine counted fun hup => ?_
    have hfew : e.s.ring.consecBad < 7 := by
      by_contra hno
      exact hlimit ⟨hup, Nat.not_lt.mp hno⟩
    exact (Nat.min_le_right ..).trans hfew

theorem State.arrival_held {s : State} (h : s.lineHeld) : s.arrival.s.lineHeld := by
  have zeroed : (setRing { s.ring with consecBad := 0 } (Ev.start s)).s.lineHeld :=
    ⟨{ h.1 with bad := Nat.zero_le _, up := fun _ => Nat.zero_le _ }, h.2⟩
  have up : (setRing { s.ring with consecBad := 0, link := .up } (Ev.start s)).s.lineHeld :=
    ⟨{ zeroed.1 with up := fun _ => Nat.zero_le _ }, zeroed.2⟩
  rw [← State.arrival_eq]
  unfold comeUp
  split
  · exact State.lineHeld_logging up ..
  · exact zeroed

theorem endProof_held {e : Ev} (h : e.s.lineHeld) (run : ProofRun) : (endProof run e).s.lineHeld :=
  logAlert_held (e := { e with s := _ }) (State.lineHeld_of_line h rfl) ..

theorem proofReturned_held (m : Message) {e : Ev} (h : e.s.lineHeld) : (proofReturned m e).s.lineHeld := by
  unfold proofReturned
  split
  · exact h
  · next run _ =>
    dsimp only
    have compared (r : ProofRun) : State.lineHeld { e.s with ring := { e.s.ring with proofRun := some r } } :=
      State.lineHeld_of_line h rfl
    split
    · exact endProof_held (e := { e with s := _ }) (compared _) _
    · exact compared _

theorem proofExpired_held {e : Ev} (h : e.s.lineHeld) : (proofExpired e).s.lineHeld := by
  unfold proofExpired
  split
  · exact h
  · split
    · exact endProof_held h _
    · exact h

theorem storeDone_held {e : Ev} (h : e.s.lineHeld) : (storeDone e).s.lineHeld := by
  unfold storeDone
  split
  · exact h
  · exact logAlert_held (e := { e with s := _ }) (State.lineHeld_of_line h rfl) ..

theorem transmitted_held {e : Ev} (h : e.s.lineHeld) : (transmitted e).s.lineHeld := by
  unfold transmitted
  split
  · exact h
  · exact State.lineHeld_of_line h rfl
  · split <;> exact State.lineHeld_of_line h rfl

theorem stripped_held (m : Message) {e : Ev} (h : e.s.lineHeld) : (stripped m e).s.lineHeld := by
  have order : (raiseCause .noTaker (logAlert .noTaker 0 0 0 (kindDst m) e)).s.lineHeld :=
    raiseCause_held (logAlert_held h ..) _
  rw [stripped]
  cases Kind.ofCode m.kind with
  | none => exact h
  | some k =>
    cases k with
    | feed | casein | press | jacket => exact order
    | proof => exact proofReturned_held m h
    | _ => exact h

/-! ### Reception -/

theorem fromMaster_held {src : Node} {f : Ev → Ev} {e : Ev} (h : e.s.lineHeld) (hf : (f e).s.lineHeld) :
    (fromMaster src f e).s.lineHeld := by
  unfold fromMaster
  split
  · exact hf
  · exact h

theorem take_held (m : Message) {e : Ev} (h : e.s.lineHeld) : (take m e).s.lineHeld := by
  rw [take]
  cases Kind.ofCode m.kind with
  | none => exact fromMaster_held h (answer_held h ..)
  | some k =>
    cases k with
    | sight => exact sight_held _ _ h
    | cycle => exact cycle_held _ _ h
    | sense => exact sense_held _ _ h
    | mark => exact mark_held _ _ h
    | ctrl => exact fromMaster_held h (ctrl_held _ _ h)
    | write => exact fromMaster_held h (write_held _ _ h)
    | read => exact fromMaster_held h (read_held _ _ h)
    | _ => exact h

theorem dispose_held (m : Message) {e : Ev} (h : e.s.lineHeld) : (dispose m e).s.lineHeld := by
  unfold dispose
  split_ifs
  · exact stripped_held m h
  · exact take_held m h
  · exact take_held m (forward_held m h)
  · exact forward_held m h

/-- An event of the running phase ends with the invariant when its operation keeps it. -/
theorem event_lineSound {f : Ev → Ev} {s : State} (h : s.lineSound) (hf : s.lineHeld → (f (Ev.start s)).s.lineHeld)
    (hp : s.phase = .running → (f (Ev.start s)).s.phase = .running) : (event f s).lineSound := by
  unfold event
  split
  · next hrun => exact finish_lineSound (hf ((State.lineSound_iff s).mp h).1) (hp hrun)
  · exact h

theorem phase_of_holdings {s t : State} (h : t.holdings = s.holdings) : t.phase = s.phase := congrArg Holdings.phase h

theorem receive_lineSound (m : Message) {s : State} (h : s.lineSound) : (receive m s).lineSound := by
  have hphase := (receive_yields m s).phase
  unfold receive at hphase ⊢
  unfold event at hphase ⊢
  split
  · next hrun =>
    rw [if_pos hrun] at hphase
    have hend : ∀ e : Ev, (finish e).phase = e.s.phase := fun e => State.sameButSending_phase (finish_same e)
    rw [hend, hrun] at hphase
    refine finish_lineSound ?_ hphase
    split
    · have harr : goodReceived m (Ev.start s) = dispose m s.arrival := congrArg (dispose m) s.arrival_eq
      rw [harr]
      exact dispose_held m (State.arrival_held ((State.lineSound_iff s).mp h).1)
    · exact badReceived_held ((State.lineSound_iff s).mp h).1
  · exact h

theorem receiveBytes_lineSound {bytes : List Byte} (hd : decode bytes = none) {s : State} (h : s.lineSound) :
    (receiveBytes bytes s).lineSound := by
  have hbad : receiveBytes bytes s = event badReceived s := by
    unfold receiveBytes
    rw [hd]
  rw [hbad]
  exact event_lineSound h (fun hs => badReceived_held (e := Ev.start s) hs)
    fun hrun => (phase_of_holdings (badReceived_holdings (Ev.start s))).trans hrun

/-! ### Power-on -/

theorem powerOnReset_lineSound (n : Nat) (s : State) : (powerOnReset n s).lineSound := by
  obtain ⟨h, -⟩ := resetMeetsInvariants
  exact h

/-- The ring is still and the part in CONFIG, with no carry left (R144, R158, R170). -/
def State.still (s : State) : Prop :=
  s.rc.state = .config ∧ s.ring.link = .down ∧ s.ring.tx = .idle ∧ s.ring.forward = [] ∧ s.ring.proofRun = none
    ∧ ∀ x ∈ s.dose.carries.list, x = 0

/-- In CONFIG a message that finds the queue full is dropped and nothing halts (R132, R154). -/
theorem hand_still (m : Message) {e : Ev} (h : e.s.still) : (hand m e).s.still := by
  obtain ⟨hrc, hlink, htx, hfw, hrun, hcar⟩ := h
  unfold hand
  split
  · exact ⟨hrc, hlink, htx, hfw, hrun, hcar⟩
  · have config {x : Ev} (hx : x.s.rc.state = .config) : raiseCause .outboundFull x = x := by
      unfold raiseCause
      rw [hx]
    have timed : e.s.ring.startTimer.proofRun = none := by
      rw [RingPort.startTimer, hrun]
      rfl
    split
    · rw [config (by exact hrc)]
      exact ⟨hrc, hlink, htx, hfw, timed, hcar⟩
    · rw [config (by exact hrc)]
      exact ⟨hrc, hlink, htx, hfw, hrun, hcar⟩

theorem judgedAlerts_induct {P : State → Prop}
    (hP : ∀ (code : AlertCode) (d : Word) (e : Ev), P e.s → P (logAlert code 0 0 0 d e).s) (n : Nat) (js : List Judged)
    {e : Ev} (h : P e.s) : P (judgedAlerts n js e).s := by
  induction js generalizing n e with
  | nil => exact h
  | cons j js ih =>
    refine ih (n + 1) ?_
    cases j with
    | clean => exact h
    | fixed => exact hP _ _ _ h
    | bad => exact hP _ _ _ h

/-- The judgements of the load are logged before the ring is opened (R171). -/
theorem judged_lineSound (js : List Judged) {e : Ev} (h : e.s.lineHeld) (hstill : e.s.still) (hphase : e.s.phase = .loading) :
    (finish (judgedAlerts 1 js e)).lineSound := by
  have judged := judgedAlerts_induct (P := fun x => x.lineHeld ∧ x.still ∧ x.phase = .loading)
    (fun _ _ _ hx => ⟨logAlert_held hx.1 .., hx.2⟩) 1 js ⟨h, hstill, hphase⟩
  obtain ⟨u, ⟨huheld, hustill, huphase⟩, hfinish⟩ := finish_induct
    (P := fun x => x.lineHeld ∧ x.still ∧ x.phase = .loading)
    (fun m e hx => ⟨hand_held m hx.1, hand_still m hx.2.1,
      (State.sameButSending_phase (hand_same m e)).trans hx.2.2⟩) judged
  have hnot : u.phase ≠ .running := by
    rw [huphase]
    decide
  rw [hfinish, if_neg hnot]
  exact (State.lineSound_iff u).mpr ⟨huheld, fun hrun => absurd hrun hnot, fun _ => hustill⟩

theorem powerOnLoad_lineSound (cells : CellReport) {s : State} (h : s.lineSound) : (powerOnLoad cells s).lineSound := by
  obtain ⟨hheld, -, hstart⟩ := (State.lineSound_iff s).mp h
  unfold powerOnLoad
  split
  · next hphase =>
    have hstill : s.still := hstart (by rw [hphase]; decide)
    exact judged_lineSound _ (State.lineHeld_of_line hheld rfl) hstill rfl
  · exact h

theorem loadComplete_lineSound {s : State} (h : s.lineSound) : (loadComplete s).lineSound := by
  obtain ⟨hheld, -⟩ := (State.lineSound_iff s).mp h
  unfold loadComplete
  split
  · refine finish_lineSound ?_ rfl
    split
    · exact State.lineHeld_of_line (found_held (e := Ev.start s) hheld) rfl
    · exact State.lineHeld_of_line hheld rfl
  · exact h

/-! ### Every command -/

theorem exec_lineSound {c : Instr} {s t : State} (h : s.lineSound) (hexec : exec c s = .next t) : t.lineSound := by
  cases hc : carried c with
  | some m =>
    rw [exec_carried hc] at hexec
    obtain rfl := Host.Outcome.next.inj hexec
    have hpins : (s.withPinsOf c).lineSound := by
      cases c <;> exact h
    exact receive_lineSound m hpins
  | none =>
    cases c with
    | powerOnReset n => exact Host.Outcome.next.inj hexec ▸ powerOnReset_lineSound n s
    | powerOnLoad cells => exact Host.Outcome.next.inj hexec ▸ powerOnLoad_lineSound cells h
    | loadComplete => exact Host.Outcome.next.inj hexec ▸ loadComplete_lineSound h
    | carrierFound =>
      exact Host.Outcome.next.inj hexec ▸ event_lineSound (s := { s with pins := { s.pins with carrier := true } }) h
        (fun hs => found_held (e := Ev.start { s with pins := { s.pins with carrier := true } }) hs) fun hrun => hrun
    | carrierLost =>
      exact Host.Outcome.next.inj hexec ▸ event_lineSound (s := { s with pins := { s.pins with carrier := false } }) h
        (fun hs => carrierGone_held (e := Ev.start { s with pins := { s.pins with carrier := false } }) hs) fun hrun => (phase_of_holdings (carrierGone_holdings _)).trans hrun
    | badMessage bytes => exact Host.Outcome.next.inj hexec ▸ receiveBytes_lineSound hc h
    | consecutiveBadLimit bytes => exact Host.Outcome.next.inj hexec ▸ receiveBytes_lineSound hc h
    | storeDone =>
      exact Host.Outcome.next.inj hexec ▸ event_lineSound h (fun hs => storeDone_held (e := Ev.start s) hs) fun hrun =>
        (phase_of_holdings (storeDone_holdings _)).trans hrun
    | proofTimeout =>
      exact Host.Outcome.next.inj hexec ▸ event_lineSound h (fun hs => proofExpired_held (e := Ev.start s) hs) fun hrun =>
        (phase_of_holdings (proofExpired_holdings _)).trans hrun
    | transmitComplete =>
      exact Host.Outcome.next.inj hexec ▸ event_lineSound h (fun hs => transmitted_held (e := Ev.start s) hs) fun hrun =>
        (phase_of_holdings (transmitted_holdings _)).trans hrun
    | _ => cases hc

/-- Settles O56: every operation of an event keeps the invariant but for the transmitter, whose choice ends the event; a
cycle or a DRAIN that may leave nothing to drain checks for completion. -/
theorem lineInvariantKept : Obligations.LineInvariantKept := by
  intro s t h hstep
  rcases step_next hstep with rfl | ⟨c, rest, -, hexec⟩
  · exact h
  · exact exec_lineSound (s := { s with pending := rest }) h hexec

end Sys2Proof.Machine
end

section
/-! SUPPORT. The three ends of a cycle: with its messages, with a drain completed, and at a full outbound queue (R76, R92,
R119, R138, R154); and CYCLEs that are not taken (R55). -/

namespace Sys2Proof.Machine

/-! ### CYCLEs that are not taken -/

theorem take_cycle (h : Envelope) (p : List Byte) (e : Ev) : take (h.message 0x02 p) e = cycle h.src p e := rfl

theorem cycle_config {src : Node} {p : List Byte} {e : Ev} (h : e.s.rc.state = .config) : cycle src p e = e := if_pos h

/-- A payload whose form is right names a machine by its role (R55). -/
theorem cycleMachine_eq_some {p : List Byte} {m : Merge} : cycleMachine p = some m ↔ p.length = 4 ∧ natAt1 p 0 = m.role := by
  unfold cycleMachine
  cases m <;> split_ifs <;> simp_all [Merge.role]

/-- A CYCLE of right form whose source plays the machine's role is handled by that machine (R55, R56). -/
theorem cycle_taken {src : Node} {p : List Byte} {e : Ev} {m : Merge} (hrc : e.s.rc.state ≠ .config)
    (hform : p.length = 4 ∧ natAt1 p 0 = m.role) (hsrc : e.s.plays src m.role) : cycle src p e = cycleTaken m p e := by
  rw [cycle, if_neg hrc, cycleMachine_eq_some.mpr hform]
  exact if_pos ((LineMap.matches_iff e.s m.role src).mpr hsrc)

/-- Any other is rejected (R55). -/
theorem cycle_rejected {src : Node} {p : List Byte} {e : Ev} (hrc : e.s.rc.state ≠ .config)
    (hbad : ∀ m : Merge, p.length = 4 → natAt1 p 0 = m.role → ¬ e.s.plays src m.role) :
    cycle src p e = cycleRejected src p e := by
  rw [cycle, if_neg hrc]
  split
  · rfl
  · next m hm =>
    obtain ⟨hlen, hrole⟩ := cycleMachine_eq_some.mp hm
    exact if_neg fun hmatch => hbad m hlen hrole ((LineMap.matches_iff e.s m.role src).mp hmatch)

theorem Merge.role_range (m : Merge) : m.role = 7 ∨ m.role = 8 ∨ m.role = 9 := by cases m <;> simp [Merge.role]

/-- The role a report names: that of the payload where it is in range (log 5). -/
theorem roleField_cycle (p : List Byte) :
    roleField p 7 9 = if p ≠ [] ∧ 7 ≤ natAt1 p 0 ∧ natAt1 p 0 ≤ 9 then byteAt p 0 else 0 := by
  cases p with
  | nil => rfl
  | cons x xs => simp [roleField]

/-- Settles O51: in CONFIG nothing, else a report with the role the payload names. -/
theorem cyclesTurnedAway : Obligations.CyclesTurnedAway := by
  intro h p c s ht hc x role
  have hexec : exec c s = .next (receive (h.message 0x02 p) s) := by
    rcases hc with rfl | rfl | rfl | rfl | rfl | rfl | rfl <;> exact exec_carried rfl s
  refine ⟨fun hconfig => ?_, fun hrc hbad => ?_⟩
  · exact completes_taken_unchanged hexec ht rfl ((take_cycle ..).trans (cycle_config hconfig))
  · have rejected : cycle h.src p (s.hearing (h.message 0x02 p)) = cycleRejected h.src p (s.hearing (h.message 0x02 p)) :=
      cycle_rejected hrc fun m hlen hrole hplays =>
        hbad ⟨hlen, by rw [show role = m.role from hrole]; exact m.role_range,
          by rw [show role = m.role from hrole]; exact hplays⟩
    have hdone := completes_taken_logging hexec ht rfl ((take_cycle ..).trans rejected)
    rwa [roleField_cycle] at hdone

/-! ### A drain completed -/

/-- With room for what precedes it a drain that finds nothing to drain completes: its tallies behind what has joined
(R138). -/
theorem checkDrain_joined {ms : List Message} {e : Ev} (hroom : e.s.ring.outbound.length + ms.length ≤ 32)
    (hrun : e.s.rc.state = .drain) (hempty : e.s.queues.drained = true) :
    checkDrain (handAll ms e) = handAll (ms ++ e.s.leftovers.map (tallyMessage e.s)) e.drainedOut := by
  have hjoined (x : Ev) (hx : x.s.ring.outbound.length + ms.length ≤ 32) : handAll ms x = x.joined ms := handAll_room hx
  rw [handAll_append, hjoined e.drainedOut hroom, hjoined e hroom, checkDrain, if_pos ⟨hrun, hempty⟩, completeDrain_eq]
  rfl

/-! ### A full outbound queue -/

/-- Outside RUN an event that finds the queue full drops its messages and the ALERT it owes (R154, R166). -/
theorem State.turningAway_not_run {s u : State} (h : u.rc.state ≠ .run) (ms : List Message) :
    s.turningAway u ms = ((u.dropping ms).dropping (s.alertFor (u.dropping ms))).sending [] := by
  unfold State.turningAway
  simp only [if_neg h, State.dropping_nil]
  split_ifs with hms halert
  · subst hms
    rw [State.dropping_nil] at halert ⊢
    rw [halert, State.dropping_nil]
  · subst hms
    rfl
  · rfl

/-- A drop leaves no DRAIN standing, for it halts the line (R132, R154). -/
theorem State.dropping_not_drain {ms : List Message} (h : ms ≠ []) (s : State) : (s.dropping ms).rc.state ≠ .drain := by
  induction ms generalizing s with
  | nil => exact absurd rfl h
  | cons m ms ih =>
    rw [State.dropping_cons]
    by_cases hms : ms = []
    · subst hms
      exact State.caused_not_drain _ _
    · exact ih hms _

/-! ### The end of a cycle -/

/-- The order and the tallies of a cycle that has made `u` of the state, handed over. -/
theorem handTallies_cycle {order : Message} {ys : List Tally} {u : State} {e : Ev}
    (hu : u = { e.s with totals := e.s.totals.talliedAll ys }) :
    handTallies ys (hand order (countTallies ys e)) = handAll (order :: ys.map (tallyMessage u)) { e with s := u } := by
  have hcounted : countTallies ys e = { e with s := u } := by rw [hu]; rfl
  rw [hcounted, handTallies, tallyMessage_of_same (hand_same order { e with s := u })]
  rfl

/-- The orders of an event do not depend on the totals. -/
theorem feedMessages_counted {ys : List Tally} {u : State} {e : Ev} (hu : u = { e.s with totals := e.s.totals.talliedAll ys }) :
    (e.feeds.flatMap fun f => u.feedOrder f.1 f.2) = e.feedMessages := by
  have horder (f : Feeder) (v : FeedLevel) : u.feedOrder f v = e.s.feedOrder f v := by
    rw [hu]
    rfl
  simp only [horder]
  rfl

theorem endCycle_eq {before : Queues} {removed : Bool} {order : Message} {ys : List Tally} {u : State} {e : Ev}
    (hu : u = { e.s with totals := e.s.totals.talliedAll ys }) :
    endCycle before removed order ys e = computeLevels before
      (if removed then checkDrain (handAll (order :: ys.map (tallyMessage u)) { e with s := u })
        else handAll (order :: ys.map (tallyMessage u)) { e with s := u }) := by
  rw [endCycle, handTallies_cycle hu]

/-- A cycle that ends a drain: its messages and those of the completion (R138). -/
theorem endCycle_drains {s u : State} {before : Queues} {order : Message} {ys : List Tally} {e : Ev}
    (hu : u = { e.s with totals := e.s.totals.talliedAll ys }) (hp : e.s.phase = .running) (ho : e.owes s.mu.log)
    (hrun : u.rc.state = .drain) (hempty : u.queues.drained = true)
    (hroom : u.ring.outbound.length + 1 + ys.length ≤ 32) :
    (u.drainedOut.relevelled before).handsOver
      (order :: ys.map (tallyMessage u) ++ u.leftovers.map (tallyMessage u) ++ e.feedMessages
        ++ u.drainedOut.relevelOrders before ++ s.alertFor (u.drainedOut.relevelled before))
      (finish (endCycle before true order ys e)) := by
  let x : Ev := { e with s := u }
  have hroom' : x.s.ring.outbound.length + (order :: ys.map (tallyMessage u)).length ≤ 32 := by
    rw [List.length_cons, List.length_map]
    change u.ring.outbound.length + (ys.length + 1) ≤ 32
    omega
  have howes : x.drainedOut.owes s.mu.log :=
    Ev.owes_drainedOut (Ev.owes_of_eq ho (e' := x) (by change u.mu = _; rw [hu]) rfl)
  have hfeeds : x.drainedOut.feedMessages = e.feedMessages :=
    (show x.drainedOut.feedMessages = x.feedMessages from rfl).trans (feedMessages_counted hu)
  have hphase : x.drainedOut.s.phase = .running := by
    change u.phase = .running
    rw [hu]
    exact hp
  rw [endCycle_eq hu, if_pos rfl, checkDrain_joined (e := x) hroom' hrun hempty]
  refine ⟨?_, fun hfits => ?_⟩
  · refine State.sameButSending_relevelled ?_
    rw [show u.drainedOut = x.drainedOut.s from (Ev.drainedOut_s x).symm]
    exact State.sameButSending_trans (handAll_same _ _)
      (State.sameButSending_trans (computeLevels_same _ _) (finish_same _))
  · have sent := computeLevels_room (s := s) (e := x.drainedOut) (before := before)
      (ms := order :: ys.map (tallyMessage u) ++ u.leftovers.map (tallyMessage u)) hphase howes
    rw [hfeeds, Ev.drainedOut_s] at sent
    rw [State.relevelled_ringPort] at hfits
    exact sent hfits

/-- A cycle that finds the queue full drops every message (R154). -/
theorem endCycle_full {s u : State} {before : Queues} {removed : Bool} {order : Message} {ys : List Tally} {e : Ev}
    (hu : u = { e.s with totals := e.s.totals.talliedAll ys }) (hp : e.s.phase = .running) (ho : e.owes s.mu.log)
    (horder : isProof15 order = false) (hfull : 32 ≤ u.ring.outbound.length) :
    let v := u.dropping (order :: ys.map (tallyMessage u))
    let feeds := e.feedMessages ++ (if u.rc.state = .run then u.pauseOrders else []) ++ v.relevelOrders before
    let w := (v.relevelled before).dropping feeds
    finish (endCycle before removed order ys e) = (w.dropping (s.alertFor w)).sending [] := by
  intro v feeds w
  let x : Ev := { e with s := u }
  have hnot : ∀ m ∈ order :: ys.map (tallyMessage u), isProof15 m = false := by
    intro m hm
    rcases List.mem_cons.mp hm with rfl | hm
    · exact horder
    · obtain ⟨y, -, rfl⟩ := List.mem_map.mp hm
      rfl
  obtain ⟨hs, hf⟩ := handAll_full (e := x) hfull hnot
  rw [if_neg (List.cons_ne_nil _ _)] at hf
  have hdropped : (handAll (order :: ys.map (tallyMessage u)) x).s = u.dropping (order :: ys.map (tallyMessage u)) := hs
  have hformed : (handAll (order :: ys.map (tallyMessage u)) x).feeds = e.feeds ++ u.causeFeeds := hf
  have howes : (handAll (order :: ys.map (tallyMessage u)) x).owes s.mu.log :=
    Ev.owes_handAll (Ev.owes_of_eq ho (e' := x) (by change u.mu = _; rw [hu]) rfl) _
  have hundrained : checkDrain (handAll (order :: ys.map (tallyMessage u)) x)
      = handAll (order :: ys.map (tallyMessage u)) x := by
    refine if_neg fun hd => ?_
    rw [hdropped] at hd
    exact State.dropping_not_drain (List.cons_ne_nil _ _) _ hd.1
  have hend : endCycle before removed order ys e
      = computeLevels before (handAll (order :: ys.map (tallyMessage u)) x) := by
    rw [endCycle_eq hu]
    change computeLevels before (if removed then checkDrain (handAll _ x) else handAll _ x) = _
    rw [hundrained, ite_self]
  obtain ⟨hlevels, horders, halerts⟩ := computeLevels_spec before (handAll (order :: ys.map (tallyMessage u)) x)
  have hmessages : (handAll (order :: ys.map (tallyMessage u)) x).feedMessages
      = e.feedMessages ++ if u.rc.state = .run then u.pauseOrders else [] := by
    rw [Ev.feedMessages_of hdropped hformed, List.flatMap_append, feedMessages_counted hu, State.causeFeeds_messages]
    rfl
  rw [hdropped] at hlevels horders
  rw [hmessages] at horders
  have hnorun : (v.relevelled before).rc.state ≠ .run := by
    have hsame : (v.relevelled before).rc = v.rc := by
      rw [← hlevels, computeLevels_rc, hdropped]
    rw [hsame]
    exact State.dropping_not_run (List.cons_ne_nil _ _) _
  have hphase : (v.relevelled before).phase = .running := by
    rw [State.relevelled_phase, State.dropping_phase, hu]
    exact hp
  have hqueue : 32 ≤ (v.relevelled before).ring.outbound.length := by
    rw [State.relevelled_ringPort, State.dropping_ring]
    exact hfull
  have hfinish := finish_full (s := s) (ms := []) (e := computeLevels before (handAll (order :: ys.map (tallyMessage u)) x))
    (by rwa [hlevels]) nofun (by rwa [hlevels]) (Ev.owes_computeLevels howes before)
  rw [hend]
  rw [hlevels, List.nil_append, horders, State.turningAway_not_run hnorun] at hfinish
  exact hfinish

/-- The end of a cycle whose event has made `u`, but for the tallies, and formed `orders`. -/
theorem cycleEnds_of {s u : State} {c : Instr} {before : Queues} {removed : Bool} {order : Message} {ys : List Tally}
    {orders : List Message} {e : Ev} (hexec : exec c s = .next (finish (endCycle before removed order ys e)))
    (hu : u = { e.s with totals := e.s.totals.talliedAll ys }) (hp : e.s.phase = .running) (ho : e.owes s.mu.log)
    (hf : e.feedMessages = orders) (horder : isProof15 order = false) :
    s.cycleEnds c before removed u order ys orders := by
  subst hf
  unfold State.cycleEnds
  intro ends
  refine ⟨fun hends => ⟨_, hexec, ?_⟩, fun hends hroom => ⟨_, hexec, ?_⟩, fun hfull => ?_⟩
  · exact endCycle_goes hu hp ho hends
  · obtain ⟨hremoved, hrun, hbq, htq, haq, hpt⟩ := hends
    rw [hremoved]
    exact endCycle_drains hu hp ho hrun ((Queues.drained_iff _).mpr ⟨hbq, htq, haq, hpt⟩) hroom
  · intro v feeds w
    rw [hexec]
    exact congrArg Host.Outcome.next (endCycle_full hu hp ho horder hfull)

end Sys2Proof.Machine
end

section
/-! SUPPORT. The casing cycle in the terms of Safety: continuity, reconciliation, decision, order and tallies (R56 to R76). -/

namespace Sys2Proof.Machine

/-! ### What a cycle leaves alone -/

/-- What the steps of a cycle find as the cycle began: the phase, the part's numbers and settings, and the run totals. -/
structure Fixtures where
  phase : Phase
  ownNode : Node
  lineMap : LineMap
  limits : Limits
  profiles : Table Profile 64
  totals : Totals

def State.fixtures (s : State) : Fixtures := ⟨s.phase, s.ring.ownNode, s.lineMap, s.limits, s.profiles, s.totals⟩

theorem State.caused_fixtures (c : Cause) (s : State) : (s.caused c).fixtures = s.fixtures := by
  have h := State.caused_same c s
  unfold State.sameButSending at h
  rw [h]
  rfl

theorem State.gapChecked_fixtures (ok : Bool) (stage : Byte) (n : Word) (s : State) :
    (s.gapChecked ok stage n).fixtures = s.fixtures := by
  unfold State.gapChecked
  split
  · rfl
  · exact State.caused_fixtures ..

theorem State.loggingIf_fixtures (b : Bool) (code : AlertCode) (stage : Byte) (serial : Serial) (key : TitleKey)
    (detail : Word) (s : State) : (s.loggingIf b code stage serial key detail).fixtures = s.fixtures := by
  cases b <;> rfl

theorem State.reconciled_fixtures {α : Type} (p : Presence α) (stage : Byte) (role code : Word) (serial : α → Serial)
    (key : α → TitleKey) (s : State) : (s.reconciled p stage role code serial key).fixtures = s.fixtures := by
  cases p <;> rfl

/-- A record leaves the collections alone, so that replacing them and recording commute. -/
theorem State.reconciled_holding {α : Type} (p : Presence α) (stage : Byte) (role code : Word) (serial : α → Serial)
    (key : α → TitleKey) (bq : List BlockEntry) (cq : List CaseEntry) (jq : List JacketEntry) (tq aq : List BookRecord)
    (s : State) : (s.reconciled p stage role code serial key).holding bq cq jq tq aq
      = (s.holding bq cq jq tq aq).reconciled p stage role code serial key := by
  cases p <;> rfl

theorem State.reconciled_queues {α : Type} (p : Presence α) (stage : Byte) (role code : Word) (serial : α → Serial)
    (key : α → TitleKey) (s : State) : (s.reconciled p stage role code serial key).queues = s.queues := by
  cases p <;> rfl

theorem State.loggingIf_queues (b : Bool) (code : AlertCode) (stage : Byte) (serial : Serial) (key : TitleKey)
    (detail : Word) (s : State) : (s.loggingIf b code stage serial key detail).queues = s.queues := by
  cases b <;> rfl

/-! ### From one event to the next -/

/-- Event `x` has made `u` of what `e` found, formed `orders` of FEED beside those formed, and owes what it has logged. -/
structure Ev.comesTo (e : Ev) (u : State) (orders : List Message) (x : Ev) : Prop where
  state : x.s = u
  feeds : x.feedMessages = e.feedMessages ++ orders
  owes : ∀ before, e.owes before → x.owes before

theorem Ev.comesTo_trans {e x y : Ev} {u v : State} {ms ns : List Message} (hx : e.comesTo u ms x)
    (hy : x.comesTo v ns y) : e.comesTo v (ms ++ ns) y :=
  ⟨hy.state, by rw [hy.feeds, hx.feeds, List.append_assoc], fun before h => hy.owes before (hx.owes before h)⟩

/-- A step that forms no order, logs nothing and keeps what orders are addressed by. -/
theorem Ev.comesTo_silent {e x : Ev} (hfeeds : x.feeds = e.feeds) (hmu : x.s.mu = e.s.mu)
    (hdue : x.alertsDue = e.alertsDue) (hfix : x.s.fixtures = e.s.fixtures) : e.comesTo x.s [] x := by
  refine ⟨rfl, ?_, fun before h => Ev.owes_of_eq h hmu hdue⟩
  have hmap : x.s.lineMap = e.s.lineMap := congrArg Fixtures.lineMap hfix
  have hnode : x.s.ring.ownNode = e.s.ring.ownNode := congrArg Fixtures.ownNode hfix
  simp only [List.append_nil, Ev.feedMessages, hfeeds, State.feedOrder, ownMessage, hmap, hnode]

theorem Ev.comesTo_logAlert (code : AlertCode) (stage : Byte) (serial : Serial) (key : TitleKey) (detail : Word) (e : Ev) :
    e.comesTo (e.s.logging code stage serial key detail) [] (logAlert code stage serial key detail e) :=
  ⟨rfl, (List.append_nil _).symm, fun _ h => Ev.owes_logAlert h ..⟩

theorem Ev.comesTo_raiseCause (c : Cause) (e : Ev) : e.comesTo (e.s.caused c) e.s.causeOrders (raiseCause c e) := by
  refine ⟨raiseCause_s c e, ?_, fun _ h => Ev.owes_raiseCause h c⟩
  simp only [Ev.feedMessages, raiseCause_s, raiseCause_feeds, State.caused_feedOrder, List.flatMap_append,
    State.causeFeeds_messages]

theorem Ev.comesTo_continuity (m : Merge) (n : Word) (e : Ev) :
    e.comesTo (({ e.s with cycles := e.s.cycles.setLast n m }).gapChecked (follows (e.s.cycles.last m) n)
      m.stage.code n) (e.s.gapOrders (follows (e.s.cycles.last m) n)) (continuity m n e) := by
  let x : Ev := { e with s := { e.s with cycles := e.s.cycles.setLast n m } }
  have set : e.comesTo x.s [] x := Ev.comesTo_silent rfl rfl rfl rfl
  have hc : continuity m n e = if follows (e.s.cycles.last m) n then x
      else raiseCause .tracking (logAlert .cycleGap m.stage.code 0 0 n x) := by
    rw [← inSequence_eq]
    rfl
  rw [hc]
  unfold State.gapChecked State.gapOrders
  split
  · exact set
  · exact Ev.comesTo_trans set (Ev.comesTo_trans (Ev.comesTo_logAlert ..) (Ev.comesTo_raiseCause ..))

theorem Ev.comesTo_presenceAlert {α : Type} (m : Merge) (c : Collection) (serial : α → Serial) (key : α → TitleKey)
    (p : Presence α) (e : Ev) :
    e.comesTo (e.s.reconciled p m.stage.code (BitVec.ofNat 16 m.role) (BitVec.ofNat 16 c.code) serial key) []
      (presenceAlert m c serial key p e) := by
  cases p with
  | phantom => exact Ev.comesTo_logAlert ..
  | lost x => exact Ev.comesTo_logAlert ..
  | _ => exact Ev.comesTo_silent rfl rfl rfl rfl

theorem Ev.comesTo_starveAlert (m : Merge) (c : Collection) (limit : Nat) (serial : Serial) (key : TitleKey) (w : Waiting)
    (e : Ev) : e.comesTo (e.s.loggingIf (starvedNow w limit) .starved m.stage.code serial key (BitVec.ofNat 16 c.code)) []
      (starveAlert m c limit serial key w e) := by
  rw [starveAlert, starveAlerts_eq, State.loggingIf]
  split
  · exact Ev.comesTo_logAlert ..
  · exact Ev.comesTo_silent rfl rfl rfl rfl

theorem Ev.comesTo_doseAlert (clamped : Bool) (carry : Fin 64) (b : BlockEntry) (e : Ev) :
    e.comesTo (e.s.loggingIf clamped .doseClamped Stage.casing.code b.serial b.key (BitVec.ofNat 16 carry.val)) []
      (doseAlert clamped carry b e) := by
  cases clamped with
  | true => exact Ev.comesTo_logAlert ..
  | false => exact Ev.comesTo_silent rfl rfl rfl rfl

/-! ### Reconciliation of block and case -/

/-- The block and the case reconciled (R62 to R64). -/
theorem Ev.comesTo_casingReconciled (block caseFlag : Bool) (e : Ev) :
    let q := e.s.queues
    let rb := reconcile BlockEntry.wait BlockEntry.setWait block e.s.limits.casingWait q.bq
    let rc := reconcile CaseEntry.wait CaseEntry.setWait caseFlag e.s.limits.casingWait q.cq
    let x := reconcileCq caseFlag (reconcileBq block e).2
    x.1 = rc.1 ∧ e.comesTo (((e.s.holding rb.2 rc.2 q.jq q.tq q.aq).reconciled rb.1 16 7 1 BlockEntry.serial
      BlockEntry.key).reconciled rc.1 16 7 2 CaseEntry.serial fun _ => 0) [] x.2 := by
  intro q rb rc x
  let e₁ := (reconcileBq block e).2
  have first : e.comesTo ((setBq rb.2 e).s.reconciled rb.1 16 7 1 BlockEntry.serial BlockEntry.key) [] e₁ :=
    Ev.comesTo_trans (Ev.comesTo_silent (e := e) (x := setBq rb.2 e) rfl rfl rfl rfl)
      (Ev.comesTo_presenceAlert .casing .bq BlockEntry.serial BlockEntry.key rb.1 (setBq rb.2 e))
  have hqueues : e₁.s.queues = { q with bq := rb.2 } := by
    rw [first.state, State.reconciled_queues]
    rfl
  have hlimits : e₁.s.limits = e.s.limits := by
    rw [first.state]
    exact congrArg Fixtures.limits (State.reconciled_fixtures ..)
  have houtcome : reconcile CaseEntry.wait CaseEntry.setWait caseFlag e₁.s.limits.casingWait e₁.s.queues.cq = rc := by
    rw [hlimits, hqueues]
  have hset : (setCq rc.2 e₁).s = ((e.s.holding rb.2 rc.2 q.jq q.tq q.aq).reconciled rb.1 16 7 1 BlockEntry.serial
      BlockEntry.key) := by
    have hheld : (setCq rc.2 e₁).s = e₁.s.holding rb.2 rc.2 q.jq q.tq q.aq := by
      simp only [setCq, State.holding, hqueues]
    rw [hheld, first.state, State.reconciled_holding]
    rfl
  have hx : x = (rc.1, presenceAlert .casing .cq CaseEntry.serial (fun _ => 0) rc.1 (setCq rc.2 e₁)) := by
    change (_, presenceAlert .casing .cq CaseEntry.serial (fun _ => 0) _ (setCq _ e₁)) = _
    rw [houtcome]
  rw [hx]
  refine ⟨rfl, ?_⟩
  have second := Ev.comesTo_presenceAlert .casing .cq CaseEntry.serial (fun _ => (0 : TitleKey)) rc.1 (setCq rc.2 e₁)
  rw [hset] at second
  exact Ev.comesTo_trans first (Ev.comesTo_trans (Ev.comesTo_silent (e := e₁) (x := setCq rc.2 e₁) rfl rfl rfl rfl) second)

end Sys2Proof.Machine
end

section
/-! SUPPORT. The casing decision's effects, and the casing cycle whole (R66 to R76). -/

namespace Sys2Proof.Machine

/-! ### The decision -/

/-- What the model's decision says and does is what Safety states of it. -/
structure CasingOut.serves (o : CasingOut) (v : Served) : Prop where
  first : o.block.code = v.first
  second : o.caseItem.code = v.second
  left : o.left = v.left
  right : o.right = v.right
  tallies : o.tallies = v.ys

/-- The collections replaced, and nothing else. -/
theorem Ev.comesTo_holding {e x : Ev} {bq : List BlockEntry} {cq : List CaseEntry} {jq : List JacketEntry}
    {tq aq : List BookRecord} (hx : x = { e with s := e.s.holding bq cq jq tq aq }) :
    e.comesTo (e.s.holding bq cq jq tq aq) [] x := by
  subst hx
  exact Ev.comesTo_silent (e := e) (x := { e with s := e.s.holding bq cq jq tq aq }) rfl rfl rfl rfl

theorem starveHead_of_head {α : Type} {wait : α → Waiting} {setWait : Waiting → α → α} {limit : Nat} {xs : List α} {x : α}
    (h : xs.head? = some x) : starveHead wait setWait limit xs = setWait (starvedCounts (wait x) limit) x :: xs.tail := by
  cases xs with
  | nil => cases h
  | cons y ys =>
    obtain rfl := Option.some.inj h
    rfl

/-- The book record joins TQ, or is lost at a full one (R72). -/
theorem joinTransfer_served (r : BookRecord) (e : Ev) :
    (e.s.queues.tq.length < 4 → (joinTransfer r e).1 = [] ∧ e.comesTo
      { e.s with queues := { e.s.queues with tq := e.s.queues.tq ++ [r] } } [] (joinTransfer r e).2)
    ∧ (¬ e.s.queues.tq.length < 4 → (joinTransfer r e).1 = [bookTally r .lost .casing []]
      ∧ e.comesTo ((e.s.logging .queueOverflow 16 r.serial r.key 4).caused .overflow) e.s.causeOrders
        (joinTransfer r e).2) := by
  refine ⟨fun hroom => ?_, fun hfull => ?_⟩
  · have hj : joinTransfer r e = ([], setTq (e.s.queues.tq ++ [r]) e) := if_pos hroom
    rw [hj]
    exact ⟨rfl, Ev.comesTo_silent (e := e) (x := setTq (e.s.queues.tq ++ [r]) e) rfl rfl rfl rfl⟩
  · have hj : joinTransfer r e = ([r.tally .lost .casing []],
        raiseCause .overflow (logAlert .queueOverflow 16 r.serial r.key 4 e)) := if_neg hfull
    rw [hj]
    exact ⟨rfl, Ev.comesTo_trans (Ev.comesTo_logAlert ..) (Ev.comesTo_raiseCause ..)⟩

theorem leftCarry_val (r : Fin 32) : (leftCarry r).val = 2 * r.val := Nat.mod_eq_of_lt (by omega)

theorem rightCarry_val (r : Fin 32) : (rightCarry r).val = 2 * r.val + 1 := Nat.mod_eq_of_lt (by omega)

/-- A MATCH: the doses with their alerts, then the transfer (R70). -/
theorem casingMatch_served (b : BlockEntry) (c : CaseEntry) (d : TitleData) (e : Ev) :
    (casingMatch b c d e).1.serves (matchServed b c d e.s)
      ∧ e.comesTo (matchServed b c d e.s).after (matchServed b c d e.s).orders (casingMatch b c d e).2 := by
  let x := e.s.dose.dose d
  let q := e.s.queues
  let fired : Ev := { e with s := ({ e.s with dose := x.unit }).holding q.bq.tail q.cq.tail q.jq q.tq q.aq }
  let alerted := doseAlert x.right.clamped (rightCarry d.recipe) b (doseAlert x.left.clamped (leftCarry d.recipe) b fired)
  let r := bookOf b d (x.left.clamped || x.right.clamped)
  let a := (fired.s.loggingIf x.left.clamped .doseClamped 16 b.serial b.key (BitVec.ofNat 16 (2 * d.recipe.val))).loggingIf
    x.right.clamped .doseClamped 16 b.serial b.key (BitVec.ofNat 16 (2 * d.recipe.val + 1))
  have fire : e.comesTo fired.s [] fired := Ev.comesTo_silent (e := e) (x := fired) rfl rfl rfl rfl
  have alert : e.comesTo a [] alerted := by
    have left := Ev.comesTo_doseAlert x.left.clamped (leftCarry d.recipe) b fired
    have right := Ev.comesTo_doseAlert x.right.clamped (rightCarry d.recipe) b
      (doseAlert x.left.clamped (leftCarry d.recipe) b fired)
    rw [left.state, leftCarry_val, rightCarry_val] at right
    exact Ev.comesTo_trans fire (Ev.comesTo_trans left right)
  have hheld : a.queues = ⟨q.bq.tail, q.cq.tail, q.jq, q.tq, q.pt, q.aq⟩ := by
    rw [State.loggingIf_queues, State.loggingIf_queues]
    rfl
  have hqueues : alerted.s.queues = ⟨q.bq.tail, q.cq.tail, q.jq, q.tq, q.pt, q.aq⟩ :=
    (congrArg State.queues alert.state).trans hheld
  have hmatch : casingMatch b c d e = (⟨.take, .take, x.left.shots, x.right.shots,
      c.tally .good .casing [] :: (joinTransfer r alerted).1⟩, (joinTransfer r alerted).2) := rfl
  obtain ⟨joins, overflows⟩ := joinTransfer_served r alerted
  rw [hqueues] at joins overflows
  have hserved : matchServed b c d e.s = if q.tq.length < 4 then
      ⟨a.holding q.bq.tail q.cq.tail q.jq (q.tq ++ [r]) q.aq, 1, 1, 0, x.left.shots, x.right.shots,
        [c.tally .good .casing []], []⟩
    else ⟨(a.logging .queueOverflow 16 b.serial b.key 4).caused .overflow, 1, 1, 0, x.left.shots, x.right.shots,
      [c.tally .good .casing [], bookTally r .lost .casing []], a.causeOrders⟩ := rfl
  rw [hmatch, hserved]
  split
  · next hroom =>
    obtain ⟨hlost, joined⟩ := joins hroom
    have hstate : ({ alerted.s with queues := ⟨q.bq.tail, q.cq.tail, q.jq, q.tq ++ [r], q.pt, q.aq⟩ } : State)
        = a.holding q.bq.tail q.cq.tail q.jq (q.tq ++ [r]) q.aq := by
      rw [State.holding, hheld, alert.state]
    rw [hstate] at joined
    exact ⟨⟨rfl, rfl, rfl, rfl, by rw [hlost]⟩, Ev.comesTo_trans alert joined⟩
  · next hfull =>
    obtain ⟨hlost, dropped⟩ := overflows hfull
    rw [alert.state] at dropped
    exact ⟨⟨rfl, rfl, rfl, rfl, by rw [hlost]⟩, Ev.comesTo_trans alert dropped⟩

/-- Each case of the decision, for heads that stand at the head of their queues (R67 to R73). -/
theorem casingApply_served {d : CasingCase} {e : Ev} (hd : d.ofHeads e.s.queues) :
    (casingApply e.s.limits d e).1.serves (casingServed d e.s)
      ∧ e.comesTo (casingServed d e.s).after (casingServed d e.s).orders (casingApply e.s.limits d e).2 := by
  cases d with
  | flagged b =>
    refine ⟨⟨rfl, rfl, rfl, rfl, ?_⟩, Ev.comesTo_holding rfl⟩
    exact congrArg (fun y => [y]) ((blockTally_eq ..).trans (by rw [blockReasons_eq]))
  | wrongCase c => exact ⟨⟨rfl, rfl, rfl, rfl, rfl⟩, Ev.comesTo_holding rfl⟩
  | noCase b =>
    exact ⟨⟨rfl, rfl, rfl, rfl, congrArg (fun y => [y]) (blockTally_eq ..)⟩, Ev.comesTo_holding rfl⟩
  | misfit b c => exact ⟨⟨rfl, rfl, rfl, rfl, rfl⟩, Ev.comesTo_holding rfl⟩
  | misfitLimit b c =>
    exact ⟨⟨rfl, rfl, rfl, rfl, congrArg (fun y => [y, c.tally .reject .casing [.fit]]) (blockTally_eq ..)⟩,
      Ev.comesTo_holding rfl⟩
  | matched b c t => exact casingMatch_served b c t e
  | blockWaits b =>
    refine ⟨⟨rfl, rfl, rfl, rfl, rfl⟩, ?_⟩
    have waits : e.comesTo (e.s.holding ({ b with wait := starvedCounts b.wait e.s.limits.casingWait } :: e.s.queues.bq.tail)
        e.s.queues.cq e.s.queues.jq e.s.queues.tq e.s.queues.aq) []
        (setBq (starveHead BlockEntry.wait BlockEntry.setWait e.s.limits.casingWait e.s.queues.bq) e) := by
      rw [starveHead_of_head hd]
      exact Ev.comesTo_holding rfl
    have starved := Ev.comesTo_starveAlert .casing .bq e.s.limits.casingWait b.serial b.key b.wait
      (setBq (starveHead BlockEntry.wait BlockEntry.setWait e.s.limits.casingWait e.s.queues.bq) e)
    rw [waits.state] at starved
    exact Ev.comesTo_trans waits starved
  | caseWaits c =>
    refine ⟨⟨rfl, rfl, rfl, rfl, rfl⟩, ?_⟩
    have waits : e.comesTo (e.s.holding e.s.queues.bq ({ c with wait := starvedCounts c.wait e.s.limits.casingWait } ::
        e.s.queues.cq.tail) e.s.queues.jq e.s.queues.tq e.s.queues.aq) []
        (setCq (starveHead CaseEntry.wait CaseEntry.setWait e.s.limits.casingWait e.s.queues.cq) e) := by
      rw [starveHead_of_head hd]
      exact Ev.comesTo_holding rfl
    have starved := Ev.comesTo_starveAlert .casing .cq e.s.limits.casingWait c.serial 0 c.wait
      (setCq (starveHead CaseEntry.wait CaseEntry.setWait e.s.limits.casingWait e.s.queues.cq) e)
    rw [waits.state] at starved
    exact Ev.comesTo_trans waits starved
  | neither => exact ⟨⟨rfl, rfl, rfl, rfl, rfl⟩, Ev.comesTo_silent rfl rfl rfl rfl⟩

theorem matchServed_fixtures (b : BlockEntry) (c : CaseEntry) (d : TitleData) (s : State) :
    (matchServed b c d s).after.fixtures = s.fixtures := by
  unfold matchServed
  dsimp only
  split
  · exact (State.loggingIf_fixtures ..).trans (State.loggingIf_fixtures ..)
  · rw [State.caused_fixtures]
    exact (State.loggingIf_fixtures ..).trans (State.loggingIf_fixtures ..)

theorem casingServed_fixtures (d : CasingCase) (s : State) : (casingServed d s).after.fixtures = s.fixtures := by
  cases d with
  | matched b c t => exact matchServed_fixtures b c t s
  | blockWaits b => exact State.loggingIf_fixtures ..
  | caseWaits c => exact State.loggingIf_fixtures ..
  | _ => rfl

/-! ### The cycle -/

/-- The tallies of a casing cycle as Safety lists them (R76). -/
def casingAccount (pb : Presence BlockEntry) (pc : Presence CaseEntry) (v : Served) : List Tally :=
  lostTallies (fun b => blockTally b .lost .queue (blockReasons b)) pb
    ++ lostTallies (fun c : CaseEntry => ⟨.caseItem, c.serial, 0, .lost, .queue, [], 0⟩) pc
    ++ phantomAccount .block .casing pb ++ phantomAccount .caseItem .casing pc ++ v.ys

/-- The CASEIN order as Safety writes it (R74). -/
def caseinMessage (x : State) (n : Word) (pb : Presence BlockEntry) (pc : Presence CaseEntry) (v : Served) : Message :=
  ⟨x.lineMap.role 7, x.ring.ownNode, 0x11, 0,
    bytes2 n ++ [if pb.isPhantom then 3 else v.first, if pc.isPhantom then 3 else v.second]
      ++ bytes2 (BitVec.ofNat 16 v.left) ++ bytes2 (BitVec.ofNat 16 v.right)
      ++ bytes4 ((pb.head.map BlockEntry.serial).getD 0)⟩

/-- The CASEIN order of a decision (R74). -/
theorem caseinOrder_eq {t x : State} (hfix : t.fixtures = x.fixtures) (n : Word) (pb : Presence BlockEntry)
    (pc : Presence CaseEntry) {out : CasingOut} {v : Served} (h : out.serves v) :
    caseinOrder t n pb pc out = caseinMessage x n pb pc v := by
  have hmap : t.lineMap = x.lineMap := congrArg Fixtures.lineMap hfix
  have hnode : t.ring.ownNode = x.ring.ownNode := congrArg Fixtures.ownNode hfix
  rw [caseinOrder, ownMessage, apply_ite BlockAction.code, apply_ite CaseAction.code, h.first, h.second, h.left, h.right,
    hmap, hnode]
  rfl

/-- The tallies of a casing cycle (R75, R76). -/
theorem casingTallies_eq (pb : Presence BlockEntry) (pc : Presence CaseEntry) {out : CasingOut} {v : Served}
    (h : out.serves v) :
    casingTallies pb pc out = casingAccount pb pc v := by
  simp only [casingTallies, lostTally_eq, phantomTallies_eq, h.tallies, blockTally_eq, blockReasons_eq]
  rfl

/-- From the decision on, a casing cycle that began at `x` and has come to `z`. -/
theorem casingDecided_ends {s x z : State} {c : Instr} {before : Queues} {n : Word} {pb : Presence BlockEntry} {pc : Presence CaseEntry}
    {orders : List Message} {e e' : Ev} (he : e.comesTo z orders e') (hfeeds : e.feedMessages = [])
    (howes : e.owes s.mu.log) (hfix : z.fixtures = x.fixtures) (hp : x.phase = .running)
    (hb : ∀ b, pb.head = some b → e'.s.queues.bq.head? = some b)
    (hc : ∀ c, pc.head = some c → e'.s.queues.cq.head? = some c)
    (hexec : let v := casingApply e'.s.limits (casingCase e'.s.limits e'.s.queues.cq.tail pb.head pc.head) e'
      exec c s = .next (finish (endCycle before (decide (v.2.s.queues.bq.length < before.bq.length))
        (caseinOrder v.2.s n pb pc v.1) (casingTallies pb pc v.1) v.2))) :
    let o := casingServed (casingCase x.limits z.queues.cq.tail pb.head pc.head) z
    s.cycleEnds c before (decide (o.after.queues.bq.length < before.bq.length))
      { o.after with totals := x.totals.talliedAll (casingAccount pb pc o) } (caseinMessage x n pb pc o)
      (casingAccount pb pc o) (orders ++ o.orders) := by
  intro o
  obtain ⟨serves, comes⟩ := casingApply_served (casingCase_ofHeads e'.s.limits e'.s.queues.cq.tail hb hc)
  rw [he.state] at serves comes hexec
  have hlimits : z.limits = x.limits := congrArg Fixtures.limits hfix
  have hofix : o.after.fixtures = x.fixtures := (casingServed_fixtures ..).trans hfix
  rw [hlimits] at serves comes hexec
  have whole := Ev.comesTo_trans he comes
  dsimp only at hexec
  rw [caseinOrder_eq (x := x) (whole.state ▸ hofix) n pb pc serves, casingTallies_eq pb pc serves] at hexec
  simp only [whole.state] at hexec
  refine cycleEnds_of hexec ?_ ?_ (whole.owes _ howes) ?_ rfl
  · rw [whole.state, show o.after.totals = x.totals from congrArg Fixtures.totals hofix]
  · rw [whole.state]
    exact (congrArg Fixtures.phase hofix).trans hp
  · rw [whole.feeds, hfeeds, List.nil_append]

/-- A command whose CYCLE is taken by a machine (R55, R56). -/
theorem exec_cycle {c : Instr} {s : State} {h : Envelope} {p : List Byte} {m : Merge}
    (hexec : exec c s = .next (receive (h.message 0x02 p) s)) (ht : s.takes (h.message 0x02 p))
    (hrc : (s.heard (h.message 0x02 p)).rc.state ≠ .config) (hlen : p.length = 4)
    (hrole : byteAt p 0 = BitVec.ofNat 8 m.role) (hplays : (s.heard (h.message 0x02 p)).plays h.src m.role) :
    exec c s = .next (finish (cycleTaken m p (s.hearing (h.message 0x02 p)))) := by
  have hnamed : natAt1 p 0 = m.role := by
    rw [natAt1, hrole]
    cases m <;> rfl
  rw [hexec, receive_takes ht rfl, take_cycle]
  exact congrArg (fun e => Host.Outcome.next (finish e)) (cycle_taken hrc ⟨hlen, hnamed⟩ hplays)

/-- Settles O52: each step of the cycle comes to its term of Safety, and the end of the cycle to its three ends. -/
theorem casingCycleTaken : Obligations.CasingCycleTaken := by
  intro h p c s ht hc x hrc hlen hrole hplays n inSeq y q rb rc z o ys order u
  have hexec : exec c s = .next (receive (h.message 0x02 p) s) := by
    rcases hc with rfl | rfl | rfl | rfl | rfl <;> exact exec_carried rfl s
  have hcycle : exec c s = .next (finish (casingCycle n ((byteAt p 3).getLsbD 0) ((byteAt p 3).getLsbD 1)
    (s.hearing (h.message 0x02 p)))) := exec_cycle (m := .casing) hexec ht hrc hlen hrole hplays
  have howes := s.hearing_owes (h.message 0x02 p)
  have hphase : x.phase = .running := (State.heard_phase ..).trans ht.1.1
  have hfeeds : (s.hearing (h.message 0x02 p)).feedMessages = [] := rfl
  have hx : (s.hearing (h.message 0x02 p)).s = x := rfl
  generalize s.hearing (h.message 0x02 p) = e at hcycle howes hfeeds hx
  have gap : e.comesTo y (x.gapOrders inSeq) (continuity .casing n (advanceStamp e)) := by
    have stamped : e.comesTo (advanceStamp e).s [] (advanceStamp e) :=
      Ev.comesTo_silent (e := e) (x := advanceStamp e) rfl rfl rfl rfl
    have checked := Ev.comesTo_continuity .casing n (advanceStamp e)
    have hs : (advanceStamp e).s = { x with cycles := { x.cycles with stamp := x.cycles.stamp + 1 } } := by
      rw [← hx]
      rfl
    rw [hs] at checked
    exact Ev.comesTo_trans stamped checked
  have hyfix : y.fixtures = x.fixtures := State.gapChecked_fixtures ..
  have hlimits : y.limits = x.limits := congrArg Fixtures.limits hyfix
  obtain ⟨hpc, present⟩ := Ev.comesTo_casingReconciled ((byteAt p 3).getLsbD 0) ((byteAt p 3).getLsbD 1)
    (continuity .casing n (advanceStamp e))
  rw [gap.state, hlimits] at hpc present
  have hpb : (reconcileBq ((byteAt p 3).getLsbD 0) (continuity .casing n (advanceStamp e))).1 = rb.1 := by
    rw [reconcileBq, gap.state, hlimits]
  have hzfix : z.fixtures = x.fixtures :=
    (State.reconciled_fixtures ..).trans ((State.reconciled_fixtures ..).trans hyfix)
  have ended := casingDecided_ends (Ev.comesTo_trans gap present) hfeeds howes hzfix hphase
    (fun b hb => (congrArg List.head? (reconcileCq_bq ..)).trans (reconcileBq_head hb)) (fun c hc => reconcileCq_head hc)
    hcycle
  have hzcq : z.queues.cq = rc.2 := by
    rw [State.reconciled_queues, State.reconciled_queues]
    rfl
  rw [hpb, hpc, hzcq, hx, List.append_nil] at ended
  exact ended

end Sys2Proof.Machine
end

section
/-! SUPPORT. The jacket cycle in the terms of Safety: reconciliation, decision, route, order and tallies (R107 to R120). -/

namespace Sys2Proof.Machine

/-! ### The route of a passed book -/

theorem State.passing_untracked {k : BookRecord} (h : k.flags.untracked = true) (without : Bool) (s : State) :
    s.passing k without = (s, .reject, reasonIf without .noJacket) := if_pos h

theorem State.passing_inspected {k : BookRecord} {without : Bool} (h : ¬ k.flags.untracked = true)
    (hi : (k.flags.heatSuspect || k.flags.doseClamped || without) = true) (s : State) :
    s.passing k without = (s, .inspect, reasonIf without .noJacket) := (if_neg h).trans (if_pos hi)

/-- The proof-copy lookup decides the route of any other book (R16, R116). -/
theorem State.passing_looked {k : BookRecord} {without : Bool} (h : ¬ k.flags.untracked = true)
    (hi : ¬ (k.flags.heatSuspect || k.flags.doseClamped || without) = true) (s : State) :
    s.passing k without = ({ s with titles := (s.titles.proofLookup k.key).2 },
      if (s.titles.proofLookup k.key).1 then (.inspect, [.proofCopy]) else (.good, [])) := by
  refine (if_neg h).trans ((if_neg hi).trans ?_)
  unfold TitleTable.proofLookup
  cases s.titles.slotOf k.key with
  | none => rfl
  | some i =>
    by_cases hleft : s.titles.proofLeft.get i = 0
    · simp only [hleft, if_true, lt_irrefl, if_false]
      rfl
    · simp only [hleft, if_false, Nat.pos_of_ne_zero hleft, if_true]

/-- The route with its reasons, and the proof count it takes (R16, R116). -/
theorem routeBook_eq (k : BookRecord) (without : Bool) (e : Ev) :
    routeBook k without e = (⟨(e.s.passing k without).2.1, (e.s.passing k without).2.2⟩,
      { e with s := (e.s.passing k without).1 }) := by
  unfold routeBook
  split_ifs with huntracked hinspect
  · rw [State.passing_untracked huntracked]
  · rw [State.passing_inspected huntracked hinspect]
  · rw [State.passing_looked huntracked hinspect]
    dsimp only
    split <;> rfl

/-- A passed book touches the proof counts alone. -/
theorem State.passing_eq (k : BookRecord) (without : Bool) (s : State) :
    (s.passing k without).1 = { s with titles := (s.passing k without).1.titles } := by
  by_cases huntracked : k.flags.untracked = true
  · rw [State.passing_untracked huntracked]
  · by_cases hinspect : (k.flags.heatSuspect || k.flags.doseClamped || without) = true
    · rw [State.passing_inspected huntracked hinspect]
    · rw [State.passing_looked huntracked hinspect]

theorem State.passing_fixtures (k : BookRecord) (without : Bool) (s : State) :
    (s.passing k without).1.fixtures = s.fixtures := by
  rw [State.passing_eq]
  rfl

theorem State.passing_mu (k : BookRecord) (without : Bool) (s : State) : (s.passing k without).1.mu = s.mu := by
  rw [State.passing_eq]

/-! ### The decision -/

/-- What the model's decision says and does is what Safety states of it. -/
structure JacketOut.serves (o : JacketOut) (v : Served) : Prop where
  first : o.book.code = v.first
  second : o.jacket.code = v.second
  route : (o.route.map Route.code).getD 0 = v.route
  tallies : o.tallies = v.ys

/-- A book passed: it leaves AQ, is routed and tallied (R112 to R117). -/
theorem passBook_eq (k : BookRecord) (without : Bool) (action : JacketAction) (more : List Tally) (e : Ev) :
    let r := (setAq e.s.queues.aq.tail e).s.passing k without
    passBook k without action more e
      = (⟨.pass, action, some r.2.1, bookTally k r.2.1 .jacketing r.2.2 :: more⟩, { e with s := r.1 }) := by
  intro r
  rw [passBook, routeBook_eq]
  rfl

theorem Ev.comesTo_passing (k : BookRecord) (without : Bool) {t : State} {e : Ev} (hmu : t.mu = e.s.mu)
    (hfix : t.fixtures = e.s.fixtures) :
    e.comesTo (t.passing k without).1 [] { e with s := (t.passing k without).1 } :=
  Ev.comesTo_silent (e := e) (x := { e with s := (t.passing k without).1 }) rfl ((State.passing_mu ..).trans hmu) rfl
    ((State.passing_fixtures ..).trans hfix)

/-- Each case of the decision, for heads that stand at the head of their queues (R111 to R117). -/
theorem jacketApply_served {d : JacketCase} {e : Ev} (hd : d.ofHeads e.s.queues) :
    (jacketApply e.s.limits d e).1.serves (jacketServed d e.s)
      ∧ e.comesTo (jacketServed d e.s).after (jacketServed d e.s).orders (jacketApply e.s.limits d e).2 := by
  cases d with
  | unjacketed k =>
    rw [show jacketApply e.s.limits (.unjacketed k) e = passBook k false .none [] e from rfl, passBook_eq]
    exact ⟨⟨rfl, rfl, rfl, rfl⟩, Ev.comesTo_passing k false rfl rfl⟩
  | wrongJacket j => exact ⟨⟨rfl, rfl, rfl, rfl⟩, Ev.comesTo_holding rfl⟩
  | noJacket k =>
    rw [show jacketApply e.s.limits (.noJacket k) e = passBook k true .hold [] e from rfl, passBook_eq]
    exact ⟨⟨rfl, rfl, rfl, rfl⟩, Ev.comesTo_passing k true rfl rfl⟩
  | apply k j =>
    rw [show jacketApply e.s.limits (.apply k j) e
      = passBook k false .apply [j.tally .good .jacketing []] (setJq e.s.queues.jq.tail e) from rfl, passBook_eq]
    exact ⟨⟨rfl, rfl, rfl, rfl⟩, Ev.comesTo_passing k false rfl rfl⟩
  | bookWaits k =>
    refine ⟨⟨rfl, rfl, rfl, rfl⟩, ?_⟩
    have waits : e.comesTo (e.s.holding e.s.queues.bq e.s.queues.cq e.s.queues.jq e.s.queues.tq
        ({ k with wait := starvedCounts k.wait e.s.limits.jacketWait } :: e.s.queues.aq.tail)) []
        (setAq (starveHead BookRecord.wait BookRecord.setWait e.s.limits.jacketWait e.s.queues.aq) e) := by
      rw [starveHead_of_head hd]
      exact Ev.comesTo_holding rfl
    have starved := Ev.comesTo_starveAlert .jacketer .aq e.s.limits.jacketWait k.serial k.key k.wait
      (setAq (starveHead BookRecord.wait BookRecord.setWait e.s.limits.jacketWait e.s.queues.aq) e)
    rw [waits.state] at starved
    exact Ev.comesTo_trans waits starved
  | jacketWaits j =>
    refine ⟨⟨rfl, rfl, rfl, rfl⟩, ?_⟩
    have waits : e.comesTo (e.s.holding e.s.queues.bq e.s.queues.cq
        ({ j with wait := starvedCounts j.wait e.s.limits.jacketWait } :: e.s.queues.jq.tail) e.s.queues.tq
        e.s.queues.aq) []
        (setJq (starveHead JacketEntry.wait JacketEntry.setWait e.s.limits.jacketWait e.s.queues.jq) e) := by
      rw [starveHead_of_head hd]
      exact Ev.comesTo_holding rfl
    have starved := Ev.comesTo_starveAlert .jacketer .jq e.s.limits.jacketWait j.serial 0 j.wait
      (setJq (starveHead JacketEntry.wait JacketEntry.setWait e.s.limits.jacketWait e.s.queues.jq) e)
    rw [waits.state] at starved
    exact Ev.comesTo_trans waits starved
  | neither => exact ⟨⟨rfl, rfl, rfl, rfl⟩, Ev.comesTo_silent rfl rfl rfl rfl⟩

theorem jacketServed_fixtures (d : JacketCase) (s : State) : (jacketServed d s).after.fixtures = s.fixtures := by
  cases d with
  | unjacketed k => exact State.passing_fixtures ..
  | noJacket k => exact State.passing_fixtures ..
  | apply k j => exact State.passing_fixtures ..
  | bookWaits k => exact State.loggingIf_fixtures ..
  | jacketWaits j => exact State.loggingIf_fixtures ..
  | _ => rfl

/-! ### Reconciliation of book and jacket -/

/-- The book and the jacket reconciled (R108). -/
theorem Ev.comesTo_jacketReconciled (book jacketFlag : Bool) (e : Ev) :
    let q := e.s.queues
    let rk := reconcile BookRecord.wait BookRecord.setWait book e.s.limits.jacketWait q.aq
    let rj := reconcile JacketEntry.wait JacketEntry.setWait jacketFlag e.s.limits.jacketWait q.jq
    let x := reconcileJq jacketFlag (reconcileAq book e).2
    x.1 = rj.1 ∧ e.comesTo (((e.s.holding q.bq q.cq rj.2 q.tq rk.2).reconciled rk.1 18 9 6 BookRecord.serial
      BookRecord.key).reconciled rj.1 18 9 3 JacketEntry.serial fun _ => 0) [] x.2 := by
  intro q rk rj x
  let e₁ := (reconcileAq book e).2
  have first : e.comesTo ((setAq rk.2 e).s.reconciled rk.1 18 9 6 BookRecord.serial BookRecord.key) [] e₁ :=
    Ev.comesTo_trans (Ev.comesTo_silent (e := e) (x := setAq rk.2 e) rfl rfl rfl rfl)
      (Ev.comesTo_presenceAlert .jacketer .aq BookRecord.serial BookRecord.key rk.1 (setAq rk.2 e))
  have hqueues : e₁.s.queues = { q with aq := rk.2 } := by
    rw [first.state, State.reconciled_queues]
    rfl
  have hlimits : e₁.s.limits = e.s.limits := by
    rw [first.state]
    exact congrArg Fixtures.limits (State.reconciled_fixtures ..)
  have houtcome : reconcile JacketEntry.wait JacketEntry.setWait jacketFlag e₁.s.limits.jacketWait e₁.s.queues.jq = rj := by
    rw [hlimits, hqueues]
  have hset : (setJq rj.2 e₁).s = ((e.s.holding q.bq q.cq rj.2 q.tq rk.2).reconciled rk.1 18 9 6 BookRecord.serial
      BookRecord.key) := by
    have hheld : (setJq rj.2 e₁).s = e₁.s.holding q.bq q.cq rj.2 q.tq rk.2 := by
      simp only [setJq, State.holding, hqueues]
    rw [hheld, first.state, State.reconciled_holding]
    rfl
  have hx : x = (rj.1, presenceAlert .jacketer .jq JacketEntry.serial (fun _ => 0) rj.1 (setJq rj.2 e₁)) := by
    change (_, presenceAlert .jacketer .jq JacketEntry.serial (fun _ => 0) _ (setJq _ e₁)) = _
    rw [houtcome]
  rw [hx]
  refine ⟨rfl, ?_⟩
  have second := Ev.comesTo_presenceAlert .jacketer .jq JacketEntry.serial (fun _ => (0 : TitleKey)) rj.1 (setJq rj.2 e₁)
  rw [hset] at second
  exact Ev.comesTo_trans first (Ev.comesTo_trans (Ev.comesTo_silent (e := e₁) (x := setJq rj.2 e₁) rfl rfl rfl rfl) second)

/-! ### The cycle -/

/-- The tallies of a jacket cycle as Safety lists them (R119). -/
def jacketAccount (pk : Presence BookRecord) (pj : Presence JacketEntry) (v : Served) : List Tally :=
  lostTallies (fun r => bookTally r .lost .queue []) pk
    ++ lostTallies (fun j : JacketEntry => ⟨.jacket, j.serial, 0, .lost, .queue, [], 0⟩) pj
    ++ phantomAccount .block .jacketing pk ++ phantomAccount .jacket .jacketing pj ++ v.ys

/-- The JACKET order as Safety writes it (R118). -/
def jacketMessage (x : State) (n : Word) (pk : Presence BookRecord) (pj : Presence JacketEntry) (v : Served) : Message :=
  ⟨x.lineMap.role 9, x.ring.ownNode, 0x13, 0,
    bytes2 n
      ++ [if pk.isPhantom then 1 else v.first, if pj.isPhantom then 3 else v.second, if pk.isPhantom then 3 else v.route]
      ++ bytes4 ((pk.head.map BookRecord.serial).getD 0)⟩

/-- The JACKET order of a decision (R118). -/
theorem jacketOrder_eq {t x : State} (hfix : t.fixtures = x.fixtures) (n : Word) (pk : Presence BookRecord)
    (pj : Presence JacketEntry) {out : JacketOut} {v : Served} (h : out.serves v) :
    jacketOrder t n pk pj out = jacketMessage x n pk pj v := by
  have hmap : t.lineMap = x.lineMap := congrArg Fixtures.lineMap hfix
  have hnode : t.ring.ownNode = x.ring.ownNode := congrArg Fixtures.ownNode hfix
  rw [jacketOrder, ownMessage, routeField, apply_ite BookAction.code, apply_ite JacketAction.code, h.first, h.second,
    h.route, hmap, hnode]
  rfl

/-- The tallies of a jacket cycle (R119). -/
theorem jacketTallies_eq (pk : Presence BookRecord) (pj : Presence JacketEntry) {out : JacketOut} {v : Served}
    (h : out.serves v) : jacketTallies pk pj out = jacketAccount pk pj v := by
  simp only [jacketTallies, lostTally_eq, phantomTallies_eq, h.tallies]
  rfl

/-- From the decision on, a jacket cycle that began at `x` and has come to `z`. -/
theorem jacketDecided_ends {s x z : State} {c : Instr} {before : Queues} {n : Word} {pk : Presence BookRecord}
    {pj : Presence JacketEntry} {orders : List Message} {e e' : Ev} (he : e.comesTo z orders e')
    (hfeeds : e.feedMessages = []) (howes : e.owes s.mu.log) (hfix : z.fixtures = x.fixtures) (hp : x.phase = .running)
    (hk : ∀ k, pk.head = some k → e'.s.queues.aq.head? = some k)
    (hj : ∀ j, pj.head = some j → e'.s.queues.jq.head? = some j)
    (hexec : let v := jacketApply e'.s.limits (jacketCase e'.s.limits e'.s.queues.jq.tail pk.head pj.head) e'
      exec c s = .next (finish (endCycle before (decide (v.2.s.queues.aq.length < before.aq.length))
        (jacketOrder v.2.s n pk pj v.1) (jacketTallies pk pj v.1) v.2))) :
    let o := jacketServed (jacketCase x.limits z.queues.jq.tail pk.head pj.head) z
    s.cycleEnds c before (decide (o.after.queues.aq.length < before.aq.length))
      { o.after with totals := x.totals.talliedAll (jacketAccount pk pj o) } (jacketMessage x n pk pj o)
      (jacketAccount pk pj o) (orders ++ o.orders) := by
  intro o
  obtain ⟨serves, comes⟩ := jacketApply_served (jacketCase_ofHeads e'.s.limits e'.s.queues.jq.tail hk hj)
  rw [he.state] at serves comes hexec
  have hlimits : z.limits = x.limits := congrArg Fixtures.limits hfix
  have hofix : o.after.fixtures = x.fixtures := (jacketServed_fixtures ..).trans hfix
  rw [hlimits] at serves comes hexec
  have whole := Ev.comesTo_trans he comes
  dsimp only at hexec
  rw [jacketOrder_eq (x := x) (whole.state ▸ hofix) n pk pj serves, jacketTallies_eq pk pj serves] at hexec
  simp only [whole.state] at hexec
  refine cycleEnds_of hexec ?_ ?_ (whole.owes _ howes) ?_ rfl
  · rw [whole.state, show o.after.totals = x.totals from congrArg Fixtures.totals hofix]
  · rw [whole.state]
    exact (congrArg Fixtures.phase hofix).trans hp
  · rw [whole.feeds, hfeeds, List.nil_append]

/-- Settles O54: each step of the cycle comes to its term of Safety, and the end of the cycle to its three ends. -/
theorem jacketCycleTaken : Obligations.JacketCycleTaken := by
  intro h p c s ht hc x hrc hlen hrole hplays n inSeq y q rk rj z o ys order u
  have hexec : exec c s = .next (receive (h.message 0x02 p) s) := by
    rcases hc with rfl | rfl | rfl | rfl <;> exact exec_carried rfl s
  have hcycle : exec c s = .next (finish (jacketCycle n ((byteAt p 3).getLsbD 0) ((byteAt p 3).getLsbD 1)
    (s.hearing (h.message 0x02 p)))) := exec_cycle (m := .jacketer) hexec ht hrc hlen hrole hplays
  have howes := s.hearing_owes (h.message 0x02 p)
  have hphase : x.phase = .running := (State.heard_phase ..).trans ht.1.1
  have hfeeds : (s.hearing (h.message 0x02 p)).feedMessages = [] := rfl
  have hx : (s.hearing (h.message 0x02 p)).s = x := rfl
  generalize s.hearing (h.message 0x02 p) = e at hcycle howes hfeeds hx
  have gap : e.comesTo y (x.gapOrders inSeq) (continuity .jacketer n e) := by
    have checked := Ev.comesTo_continuity .jacketer n e
    rw [hx] at checked
    exact checked
  have hyfix : y.fixtures = x.fixtures := State.gapChecked_fixtures ..
  have hlimits : y.limits = x.limits := congrArg Fixtures.limits hyfix
  obtain ⟨hpj, present⟩ := Ev.comesTo_jacketReconciled ((byteAt p 3).getLsbD 0) ((byteAt p 3).getLsbD 1)
    (continuity .jacketer n e)
  rw [gap.state, hlimits] at hpj present
  have hpk : (reconcileAq ((byteAt p 3).getLsbD 0) (continuity .jacketer n e)).1 = rk.1 := by
    rw [reconcileAq, gap.state, hlimits]
  have hzfix : z.fixtures = x.fixtures :=
    (State.reconciled_fixtures ..).trans ((State.reconciled_fixtures ..).trans hyfix)
  have ended := jacketDecided_ends (Ev.comesTo_trans gap present) hfeeds howes hzfix hphase
    (fun k hk => (congrArg List.head? (reconcileJq_aq ..)).trans (reconcileAq_head hk)) (fun j hj => reconcileJq_head hj)
    hcycle
  have hzjq : z.queues.jq = rj.2 := by
    rw [State.reconciled_queues, State.reconciled_queues]
    rfl
  rw [hpk, hpj, hzjq, hx, List.append_nil] at ended
  exact ended

end Sys2Proof.Machine
end

section
/-! SUPPORT. The press index in the terms of Safety: outfeed, shift, suspect marking, stale advance, order and tallies (R81
to R92). -/

namespace Sys2Proof.Machine

/-! ### Outfeed and shift -/

theorem outfeed_empty {e : Ev} (h : e.s.queues.pt.p6 = none) : outfeed e = ([], e) := by
  rw [outfeed, h]

/-- The book at position 6 joins AQ with fresh counts (R83, R85). -/
theorem outfeed_joins {e : Ev} {r : BookRecord} (h : e.s.queues.pt.p6 = some r) (hroom : e.s.queues.aq.length < 8) :
    outfeed e = ([], setAq (e.s.queues.aq ++ [{ r with wait := ⟨0, 0, false⟩ }])
      (setPt { e.s.queues.pt with p6 := none } e)) := by
  rw [outfeed, h]
  exact if_pos hroom

/-- At a full AQ it is lost (R83). -/
theorem outfeed_overflows {e : Ev} {r : BookRecord} (h : e.s.queues.pt.p6 = some r) (hfull : ¬ e.s.queues.aq.length < 8) :
    outfeed e = ([bookTally r .lost .press []], raiseCause .overflow (logAlert .queueOverflow 17 r.serial r.key 6
      (setPt { e.s.queues.pt with p6 := none } e))) := by
  rw [outfeed, h]
  exact if_neg hfull

/-- What enters position 1 (R84, R86). -/
theorem infeed_eq (p : Presence BookRecord) :
    infeed p = if p.isPhantom then some ⟨0, 0, 0, 0, none, ⟨false, false, true⟩, ⟨0, 0, false⟩⟩ else p.head := by
  cases p <;> rfl

/-- Every position moves on by one, and an available head leaves TQ (R84). -/
theorem shift_eq (p : Presence BookRecord) (e : Ev) :
    shift p e = { e with s := { e.s with queues := { e.s.queues with
      tq := if p.head.isSome then e.s.queues.tq.tail else e.s.queues.tq
      pt := ⟨infeed p, e.s.queues.pt.p1, e.s.queues.pt.p2, e.s.queues.pt.p3, e.s.queues.pt.p4, e.s.queues.pt.p5⟩ } } } := by
  rw [shift]
  split <;> rfl

/-- A halt moves no item, so replacing the collections and raising commute. -/
theorem State.caused_withQueues (c : Cause) (q : Queues) (s : State) :
    ({ s with queues := q }).caused c = { s.caused c with queues := q } := by
  unfold State.caused
  cases s.rc.state <;> rfl

/-- A record leaves the collections alone. -/
theorem State.reconciled_withQueues {α : Type} (p : Presence α) (stage : Byte) (role code : Word) (serial : α → Serial)
    (key : α → TitleKey) (q : Queues) (s : State) : ({ s with queues := q }).reconciled p stage role code serial key
      = { s.reconciled p stage role code serial key with queues := q } := by
  cases p <;> rfl

theorem State.reconciled_iron {α : Type} (p : Presence α) (stage : Byte) (role code : Word) (serial : α → Serial)
    (key : α → TitleKey) (s : State) : (s.reconciled p stage role code serial key).iron = s.iron := by
  cases p <;> rfl

/-- The collections replaced, and nothing else. -/
theorem Ev.comesTo_withQueues {e x : Ev} {q : Queues} (hx : x = { e with s := { e.s with queues := q } }) :
    e.comesTo { e.s with queues := q } [] x := by
  subst hx
  exact Ev.comesTo_silent (e := e) (x := { e with s := { e.s with queues := q } }) rfl rfl rfl rfl

/-- The outfeed with room in AQ, of an event that has come to `z` with the collections `q` (R83, R85). -/
theorem Ev.comesTo_outfeed_joins {z : State} {q : Queues} {orders : List Message} {r : BookRecord} {e e' : Ev}
    (he : e.comesTo { z with queues := q } orders e') (h : q.pt.p6 = some r) (hroom : q.aq.length < 8) :
    (outfeed e').1 = [] ∧ e.comesTo { z with queues := { q with
      pt := { q.pt with p6 := none }
      aq := q.aq ++ [{ r with wait := ⟨0, 0, false⟩ }] } } orders (outfeed e').2 := by
  have hq : e'.s.queues = q := congrArg State.queues he.state
  rw [outfeed_joins (by rw [hq]; exact h) (by rw [hq]; exact hroom), hq]
  have moved := Ev.comesTo_trans he (Ev.comesTo_withQueues
    (x := setAq (q.aq ++ [{ r with wait := ⟨0, 0, false⟩ }]) (setPt { q.pt with p6 := none } e'))
    (q := { q with
      pt := { q.pt with p6 := none }
      aq := q.aq ++ [{ r with wait := ⟨0, 0, false⟩ }] }) (by rw [setAq, setPt, hq]))
  rw [he.state, List.append_nil] at moved
  exact ⟨rfl, moved⟩

/-- The outfeed at a full AQ (R83). -/
theorem Ev.comesTo_outfeed_overflows {z : State} {q : Queues} {orders : List Message} {r : BookRecord} {e e' : Ev}
    (he : e.comesTo { z with queues := q } orders e') (h : q.pt.p6 = some r) (hfull : ¬ q.aq.length < 8) :
    (outfeed e').1 = [bookTally r .lost .press []]
      ∧ e.comesTo { (z.logging .queueOverflow 17 r.serial r.key 6).caused .overflow with
        queues := { q with pt := { q.pt with p6 := none } } } (orders ++ z.causeOrders) (outfeed e').2 := by
  have hq : e'.s.queues = q := congrArg State.queues he.state
  rw [outfeed_overflows (by rw [hq]; exact h) (by rw [hq]; exact hfull), hq]
  have moved := Ev.comesTo_trans he (Ev.comesTo_withQueues (x := setPt { q.pt with p6 := none } e')
    (q := { q with pt := { q.pt with p6 := none } }) (by rw [setPt, hq]))
  rw [he.state, List.append_nil] at moved
  have logged := Ev.comesTo_trans moved (Ev.comesTo_logAlert .queueOverflow 17 r.serial r.key 6 _)
  have raised := Ev.comesTo_trans logged (Ev.comesTo_raiseCause .overflow _)
  rw [logged.state, moved.state, List.append_nil] at raised
  refine ⟨rfl, ?_⟩
  rw [← State.caused_withQueues]
  exact raised

/-! ### Suspect marking and setpoints -/

/-- A position after suspect marking, in the terms of its entry (R89). -/
theorem markPosition_eq {s y : State} {entry : Profile → ProfileEntry} {b : IronBank} {i : Nat}
    (hprofiles : s.profiles = y.profiles) (hiron : s.iron = y.iron)
    (hentry : ∀ k : Profile, entry k = k.entries.getD i ⟨0, false⟩) (hzero : entry Profile.zero = ⟨0, false⟩)
    (hb : (if i < 3 then IronBank.forward else .rear) = b) (p : Option BookRecord) :
    markPosition s entry b p = p.map (y.examined i) := by
  cases p with
  | none => rfl
  | some r =>
    have hof : entry (profileOf s.profiles r) = y.entryOf i r := by
      rw [profileOf, State.entryOf, hprofiles]
      cases r.profile with
      | none => exact hzero
      | some k => exact hentry _
    rw [markPosition, Option.map_some, State.examined, hof, hiron, hb]
    simp only [Bool.and_eq_true, BookRecord.suspect]

/-- The train after suspect marking (R89). -/
theorem markSuspects_eq {y : State} {e : Ev} (hprofiles : e.s.profiles = y.profiles) (hiron : e.s.iron = y.iron) :
    markSuspects e = { e with s := { e.s with queues := { e.s.queues with
      pt := ⟨e.s.queues.pt.p1.map (y.examined 0), e.s.queues.pt.p2.map (y.examined 1), e.s.queues.pt.p3.map (y.examined 2),
        e.s.queues.pt.p4.map (y.examined 3), e.s.queues.pt.p5.map (y.examined 4),
        e.s.queues.pt.p6.map (y.examined 5)⟩ } } } := by
  simp only [markSuspects, setPt, markPosition_eq (entry := Profile.e1) (b := .forward) (i := 0) hprofiles hiron (fun _ => rfl) rfl rfl,
    markPosition_eq (entry := Profile.e2) (b := .forward) (i := 1) hprofiles hiron (fun _ => rfl) rfl rfl,
    markPosition_eq (entry := Profile.e3) (b := .forward) (i := 2) hprofiles hiron (fun _ => rfl) rfl rfl,
    markPosition_eq (entry := Profile.e4) (b := .rear) (i := 3) hprofiles hiron (fun _ => rfl) rfl rfl,
    markPosition_eq (entry := Profile.e5) (b := .rear) (i := 4) hprofiles hiron (fun _ => rfl) rfl rfl,
    markPosition_eq (entry := Profile.e6) (b := .rear) (i := 5) hprofiles hiron (fun _ => rfl) rfl rfl]

/-- The setpoint of a position (R91). -/
theorem setpoint_eq {y : State} {entry : Profile → ProfileEntry} {i : Nat}
    (hentry : ∀ k : Profile, entry k = k.entries.getD i ⟨0, false⟩) (hzero : entry Profile.zero = ⟨0, false⟩)
    (p : Option BookRecord) : setpoint y.profiles entry p = (p.map (y.entryOf i)).getD ⟨0, false⟩ := by
  cases p with
  | none => rfl
  | some r =>
    rw [setpoint, Option.map_some, Option.getD_some, State.entryOf, profileOf]
    cases r.profile with
    | none => exact hzero
    | some k => exact hentry _

/-- A setpoint of the order, position `i + 1` (R91, Table 9-3). -/
def State.setpointAt (y : State) (i : Nat) (p : Option BookRecord) : ProfileEntry :=
  (p.map (y.entryOf i)).getD ⟨0, false⟩

theorem setpoints_eq (y : State) (t : PressTrain) : setpoints y.profiles t =
    [y.setpointAt 0 t.p1, y.setpointAt 1 t.p2, y.setpointAt 2 t.p3, y.setpointAt 3 t.p4, y.setpointAt 4 t.p5,
      y.setpointAt 5 t.p6] := by
  simp only [setpoints, State.setpointAt, setpoint_eq (entry := Profile.e1) (i := 0) (fun _ => rfl) rfl,
    setpoint_eq (entry := Profile.e2) (i := 1) (fun _ => rfl) rfl,
    setpoint_eq (entry := Profile.e3) (i := 2) (fun _ => rfl) rfl,
    setpoint_eq (entry := Profile.e4) (i := 3) (fun _ => rfl) rfl,
    setpoint_eq (entry := Profile.e5) (i := 4) (fun _ => rfl) rfl,
    setpoint_eq (entry := Profile.e6) (i := 5) (fun _ => rfl) rfl]

theorem double_add_bit (x : Byte) (b : Bool) : x <<< 1 ||| flagByte b = BitVec.ofNat 8 (b.toNat + 2 * x.toNat) := by
  revert x b
  decide

/-- The packed byte is the number its bits denote (Table 9-3). -/
theorem packBits_eq (bs : List Bool) : packBits bs = BitVec.ofNat 8 (bits bs) := by
  induction bs with
  | nil => rfl
  | cons b bs ih =>
    rw [packBits, ih, double_add_bit, bits]
    refine BitVec.eq_of_toNat_eq ?_
    simp only [BitVec.toNat_ofNat]
    omega

/-! ### The stale advance -/

theorem Ev.comesTo_advanceStale (e : Ev) : e.comesTo e.s.staleAdvanced [] (advanceStale e) := by
  have bank (b : IronBank) (e : Ev) : e.comesTo (advanceBank b e).s [] (advanceBank b e) := by
    let advanced : Ev := { e with s := { e.s with iron := e.s.iron.setBank ((e.s.iron.bank b).advance e.s.limits.stale) b } }
    have step : e.comesTo advanced.s [] advanced := Ev.comesTo_silent (e := e) (x := advanced) rfl rfl rfl rfl
    have hadv : advanceBank b e = if ((e.s.iron.bank b).advance e.s.limits.stale).sense = (e.s.iron.bank b).sense then
        advanced else logAlert .senseStale 17 0 0 (BitVec.ofNat 16 b.code) advanced := rfl
    rw [hadv]
    split
    · exact step
    · exact Ev.comesTo_trans step (Ev.comesTo_logAlert ..)
  obtain ⟨-, feeds, owes⟩ := Ev.comesTo_trans (bank .forward e) (bank .rear (advanceBank .forward e))
  exact ⟨advanceStale_s e, feeds, owes⟩

theorem State.staleAdvanced_fixtures (s : State) : s.staleAdvanced.fixtures = s.fixtures :=
  (State.loggingIf_fixtures ..).trans (State.loggingIf_fixtures ..)

theorem State.staleAdvanced_queues (s : State) : s.staleAdvanced.queues = s.queues :=
  (State.loggingIf_queues ..).trans (State.loggingIf_queues ..)

/-! ### The cycle -/

/-- What enters position 1 as Safety writes it (R84, R86). -/
def entering (p : Presence BookRecord) : Option BookRecord :=
  if p.isPhantom then some ⟨0, 0, 0, 0, none, ⟨false, false, true⟩, ⟨0, 0, false⟩⟩ else p.head

/-- The train after its shift and the suspect marking (R84, R89). -/
def State.pressed (y : State) (p : Presence BookRecord) (t : PressTrain) : PressTrain :=
  ⟨(entering p).map (y.examined 0), t.p1.map (y.examined 1), t.p2.map (y.examined 2), t.p3.map (y.examined 3),
    t.p4.map (y.examined 4), t.p5.map (y.examined 5)⟩

/-- TQ after the shift (R84). -/
def fedOn (p : Presence BookRecord) (tq : List BookRecord) : List BookRecord := if p.head.isSome then tq.tail else tq

/-- The PRESS order as Safety writes it (R91). -/
def pressMessage (x y : State) (n : Word) (p : Presence BookRecord) (t : PressTrain) : Message :=
  let entries := [y.setpointAt 0 t.p1, y.setpointAt 1 t.p2, y.setpointAt 2 t.p3, y.setpointAt 3 t.p4, y.setpointAt 4 t.p5,
    y.setpointAt 5 t.p6]
  ⟨x.lineMap.role 8, x.ring.ownNode, 0x12, 0,
    bytes2 n ++ entries.map ProfileEntry.pressure
      ++ [BitVec.ofNat 8 (bits (entries.map ProfileEntry.heat)),
        BitVec.ofNat 8 (bits ([t.p1, t.p2, t.p3, t.p4, t.p5, t.p6].map Option.isSome))]
      ++ bytes4 (((entering p).map BookRecord.serial).getD 0)⟩

theorem pressOrder_eq {u x y : State} (hfix : u.fixtures = x.fixtures) (hprofiles : u.profiles = y.profiles) (n : Word)
    (p : Presence BookRecord) : pressOrder u n p = pressMessage x y n p u.queues.pt := by
  have hmap : u.lineMap = x.lineMap := congrArg Fixtures.lineMap hfix
  have hnode : u.ring.ownNode = x.ring.ownNode := congrArg Fixtures.ownNode hfix
  simp only [pressOrder, ownMessage, hprofiles, setpoints_eq, packBits_eq, infeed_eq, hmap, hnode, pressMessage, entering]
  rfl

/-- The shift with its suspect marking and the stale advance (R84, R89, R101). -/
theorem Ev.comesTo_pressed {y v : State} {q : Queues} {p : Presence BookRecord} {orders : List Message} {e e' : Ev}
    (he : e.comesTo { v with queues := q } orders e') (hprofiles : v.profiles = y.profiles) (hiron : v.iron = y.iron) :
    e.comesTo (State.staleAdvanced { v with queues := ⟨q.bq, q.cq, q.jq, fedOn p q.tq, y.pressed p q.pt, q.aq⟩ }) orders
      (advanceStale (markSuspects (shift p e'))) := by
  have hs : e'.s = { v with queues := q } := he.state
  have hmarked : markSuspects (shift p e') = { e' with s := { e'.s with
      queues := ⟨q.bq, q.cq, q.jq, fedOn p q.tq, y.pressed p q.pt, q.aq⟩ } } := by
    have hprofiles' : (shift p e').s.profiles = y.profiles := by
      rw [shift_eq, hs]
      exact hprofiles
    have hiron' : (shift p e').s.iron = y.iron := by
      rw [shift_eq, hs]
      exact hiron
    rw [markSuspects_eq hprofiles' hiron', shift_eq, hs, infeed_eq]
    rfl
  have moved := Ev.comesTo_trans he (Ev.comesTo_withQueues hmarked)
  have advanced := Ev.comesTo_trans moved (Ev.comesTo_advanceStale (markSuspects (shift p e')))
  rw [moved.state, hs, List.append_nil, List.append_nil] at advanced
  exact advanced

/-- From the outfeed on, a press index that began at `x`, with the settings as in `y`. -/
theorem pressOutfed_ends {s x y v : State} {c : Instr} {before q : Queues} {n : Word} {p : Presence BookRecord}
    {ys : List Tally} {orders : List Message} {e e' : Ev} (he : e.comesTo { v with queues := q } orders e')
    (hfeeds : e.feedMessages = []) (howes : e.owes s.mu.log) (hfix : v.fixtures = x.fixtures) (hp : x.phase = .running)
    (hprofiles : v.profiles = y.profiles) (hiron : v.iron = y.iron)
    (hexec : let z := advanceStale (markSuspects (shift p e'))
      exec c s = .next (finish (endCycle before
        (decide (z.s.queues.tq.length < before.tq.length) || before.pt.p6.isSome) (pressOrder z.s n p) ys z))) :
    s.cycleEnds c before (decide ((fedOn p q.tq).length < before.tq.length) || before.pt.p6.isSome)
      { State.staleAdvanced { v with queues := ⟨q.bq, q.cq, q.jq, fedOn p q.tq, y.pressed p q.pt, q.aq⟩ } with
        totals := x.totals.talliedAll ys }
      (pressMessage x y n p (y.pressed p q.pt)) ys orders := by
  have whole := Ev.comesTo_pressed (p := p) he hprofiles hiron
  have hufix : (State.staleAdvanced { v with
      queues := ⟨q.bq, q.cq, q.jq, fedOn p q.tq, y.pressed p q.pt, q.aq⟩ }).fixtures = x.fixtures :=
    (State.staleAdvanced_fixtures _).trans hfix
  dsimp only at hexec
  rw [whole.state, pressOrder_eq hufix ((congrArg Fixtures.profiles hufix).trans
    ((congrArg Fixtures.profiles hfix).symm.trans hprofiles)) n p, State.staleAdvanced_queues] at hexec
  refine cycleEnds_of hexec ?_ ?_ (whole.owes _ howes) ?_ rfl
  · rw [whole.state]
    exact congrArg (fun t => { State.staleAdvanced { v with
      queues := ⟨q.bq, q.cq, q.jq, fedOn p q.tq, y.pressed p q.pt, q.aq⟩ } with totals := t.talliedAll ys })
      (congrArg Fixtures.totals hufix).symm
  · rw [whole.state]
    exact (congrArg Fixtures.phase hufix).trans hp
  · rw [whole.feeds, hfeeds, List.nil_append]

/-- The press index behind its reconciliation (R81). -/
theorem pressIndex_eq {n : Word} {flag : Bool} {p : Presence BookRecord} {e e' : Ev}
    (h : reconcileTq flag (continuity .press n e) = (p, e')) :
    let z := advanceStale (markSuspects (shift p (outfeed e').2))
    pressIndex n flag e = endCycle e.s.queues
      (decide (z.s.queues.tq.length < e.s.queues.tq.length) || e.s.queues.pt.p6.isSome) (pressOrder z.s n p)
      (lostTally BookRecord.lostTally p ++ (outfeed e').1) z := by
  rw [pressIndex, h]

/-- Settles O53: each step of the index comes to its term of Safety, and the end of the cycle to its three ends. -/
theorem pressIndexTaken : Obligations.PressIndexTaken := by
  intro h p c s ht hc x hrc hlen hrole hplays n inSeq y q ri z full v outOrders aq enters tq pt w ys held entry entries
    order u
  have hexec : exec c s = .next (receive (h.message 0x02 p) s) := by
    rcases hc with rfl | rfl | rfl | rfl <;> exact exec_carried rfl s
  have hcycle : exec c s = .next (finish (pressIndex n ((byteAt p 3).getLsbD 0) (s.hearing (h.message 0x02 p)))) :=
    exec_cycle (m := .press) hexec ht hrc hlen hrole hplays
  have howes := s.hearing_owes (h.message 0x02 p)
  have hphase : x.phase = .running := (State.heard_phase ..).trans ht.1.1
  have hfeeds : (s.hearing (h.message 0x02 p)).feedMessages = [] := rfl
  have hx : (s.hearing (h.message 0x02 p)).s = x := rfl
  generalize s.hearing (h.message 0x02 p) = e at hcycle howes hfeeds hx
  have gap : e.comesTo y (x.gapOrders inSeq) (continuity .press n e) := by
    have checked := Ev.comesTo_continuity .press n e
    rw [hx] at checked
    exact checked
  have hyfix : y.fixtures = x.fixtures := State.gapChecked_fixtures ..
  have hlimits : y.limits = x.limits := congrArg Fixtures.limits hyfix
  let e₁ := presenceAlert .press .tq BookRecord.serial BookRecord.key ri.1 (setTq ri.2 (continuity .press n e))
  have hri : reconcileTq ((byteAt p 3).getLsbD 0) (continuity .press n e) = (ri.1, e₁) := by
    rw [reconcileTq, gap.state, hlimits]
  have present : e.comesTo { z with queues := { q with tq := ri.2 } } (x.gapOrders inSeq) e₁ := by
    have set : e.comesTo { y with queues := { q with tq := ri.2 } } (x.gapOrders inSeq)
        (setTq ri.2 (continuity .press n e)) := by
      have set := Ev.comesTo_trans gap (Ev.comesTo_withQueues (x := setTq ri.2 (continuity .press n e)) rfl)
      rw [gap.state, List.append_nil] at set
      exact set
    have alerted := Ev.comesTo_trans set (Ev.comesTo_presenceAlert .press .tq BookRecord.serial BookRecord.key ri.1 _)
    rw [set.state, State.reconciled_withQueues, List.append_nil] at alerted
    exact alerted
  have hzfix : z.fixtures = x.fixtures := (State.reconciled_fixtures ..).trans hyfix
  have hziron : z.iron = y.iron := State.reconciled_iron ..
  have hheld : e₁.s.queues = { q with tq := ri.2 } := congrArg State.queues present.state
  have outfed : e.comesTo { v with queues := ⟨q.bq, q.cq, q.jq, ri.2, { q.pt with p6 := none }, aq⟩ }
        (x.gapOrders inSeq ++ outOrders) (outfeed e₁).2
      ∧ lostTallies (fun r => bookTally r .lost .queue []) ri.1 ++ (outfeed e₁).1 = ys
      ∧ v.fixtures = x.fixtures ∧ v.iron = y.iron := by
    cases hp6 : q.pt.p6 with
    | none =>
      have hv : v = z := by simp only [v, hp6]
      have ho : outOrders = [] := by simp only [outOrders, hp6]
      have ha : aq = q.aq := by simp only [aq, hp6]
      have hys : ys = lostTallies (fun r => bookTally r .lost .queue []) ri.1 ++ [] := by simp only [ys, hp6]
      have hpt : ({ q.pt with p6 := none } : PressTrain) = q.pt := by rw [← hp6]
      rw [hv, ho, ha, hys, hpt, outfeed_empty (by rw [hheld]; exact hp6), List.append_nil]
      exact ⟨present, rfl, hzfix, hziron⟩
    | some r =>
      by_cases hroom : q.aq.length < 8
      · have hfull : full = false := decide_eq_false (Nat.not_le.mpr hroom)
        have hv : v = z := by simp [v, hp6, hfull]
        have ho : outOrders = [] := by simp [outOrders, hp6, hfull]
        have ha : aq = q.aq ++ [{ r with wait := ⟨0, 0, false⟩ }] := by simp [aq, hp6, hfull]
        have hys : ys = lostTallies (fun r => bookTally r .lost .queue []) ri.1 ++ [] := by simp [ys, hp6, hfull]
        obtain ⟨hlost, joined⟩ := Ev.comesTo_outfeed_joins present hp6 hroom
        rw [hv, ho, ha, hys, hlost, List.append_nil]
        exact ⟨joined, rfl, hzfix, hziron⟩
      · have hfull : full = true := decide_eq_true (Nat.not_lt.mp hroom)
        have hv : v = (z.logging .queueOverflow 17 r.serial r.key 6).caused .overflow := by simp [v, hp6, hfull]
        have ho : outOrders = z.causeOrders := by simp [outOrders, hp6, hfull]
        have ha : aq = q.aq := by simp [aq, hp6, hfull]
        have hys : ys = lostTallies (fun r => bookTally r .lost .queue []) ri.1 ++ [bookTally r .lost .press []] := by
          simp [ys, hp6, hfull]
        obtain ⟨hlost, overflowed⟩ := Ev.comesTo_outfeed_overflows present hp6 hroom
        rw [hv, ho, ha, hys, hlost]
        exact ⟨overflowed, rfl, (State.caused_fixtures ..).trans hzfix, (State.caused_iron ..).trans hziron⟩
  obtain ⟨comes, hys, hvfix, hviron⟩ := outfed
  have hlost : lostTally BookRecord.lostTally ri.1 = lostTallies (fun r => bookTally r .lost .queue []) ri.1 :=
    lostTally_eq ..
  have hindex := pressIndex_eq hri
  dsimp only at hindex
  rw [hlost, hys, hx] at hindex
  rw [hindex] at hcycle
  exact pressOutfed_ends (y := y) comes hfeeds howes hvfix hphase
    ((congrArg Fixtures.profiles hvfix).trans (congrArg Fixtures.profiles hyfix).symm) hviron hcycle

end Sys2Proof.Machine
end

section
/-! SUPPORT. A full outbound queue: one message handed over, and whole events that find the queue full (R154). -/

namespace Sys2Proof.Machine

/-! ### One message -/

/-- A message handed to a full queue, a PROOF 15 starting the timer (R154, R157). -/
theorem hand_dropped {m : Message} {e x : Ev} (h : 32 ≤ e.s.ring.outbound.length)
    (hx : x = if isProof15 m then { e with s := { e.s with ring := e.s.ring.startTimer } } else e) :
    hand m e = raiseCause .outboundFull (logAlert .outboundFull 0 0 0 (kindDst m) x) := by
  rw [hx]
  exact if_neg (Nat.not_lt.mpr h)

/-! ### Whole events -/

/-- An event that ends by handing messages to a full queue drops them (R154). -/
theorem exec_full {c : Instr} {s u : State} {e : Ev} {ms : List Message} (hc : exec c s = .next (finish (handAll ms e)))
    (hu : e.s = u) (hfull : 32 ≤ u.ring.outbound.length) (hp : u.phase = .running)
    (hm : ∀ m ∈ ms, isProof15 m = false) (howes : e.owes s.mu.log) :
    exec c s = .next (s.turningAway u (ms ++ e.feedMessages)) := by
  subst hu
  rw [hc, finish_full hfull hm hp howes]

theorem forall_singleton_not_proof {m : Message} (h : isProof15 m = false) : ∀ x ∈ [m], isProof15 x = false := by
  intro x hx
  rwa [List.mem_singleton.mp hx]

/-! ### A jacket cycle with nothing to serve -/

theorem setAq_self {q : List BookRecord} {e : Ev} (h : e.s.queues.aq = q) : setAq q e = e := by
  subst h
  rfl

theorem setJq_self {q : List JacketEntry} {e : Ev} (h : e.s.queues.jq = q) : setJq q e = e := by
  subst h
  rfl

theorem reconcileAq_nothing {e : Ev} (h : e.s.queues.aq = []) : reconcileAq false e = (.nothing, e) := by
  have hr : reconcileAq false e = (.nothing, setAq [] e) := by
    rw [reconcileAq, h]
    rfl
  rw [hr, setAq_self h]

theorem reconcileJq_nothing {e : Ev} (h : e.s.queues.jq = []) : reconcileJq false e = (.nothing, e) := by
  have hr : reconcileJq false e = (.nothing, setJq [] e) := by
    rw [reconcileJq, h]
    rfl
  rw [hr, setJq_self h]

/-- A cycle that removes and tallies nothing hands its order over (R119). -/
theorem endCycle_idle {before : Queues} {order : Message} {e : Ev} (h : e.s.queues = before) :
    endCycle before false order [] e = handAll [order] e := by
  have hqueues : (hand order e).s.queues = before := (State.sameButSending_queues (hand_same order e)).trans h
  exact computeLevels_of_queues (e := hand order e) hqueues

/-- A jacket cycle in sequence, with neither flag set and nothing in AQ and JQ (R115, R118). -/
theorem jacketCycle_idle {n : Word} {e : Ev} (haq : e.s.queues.aq = []) (hjq : e.s.queues.jq = [])
    (hseq : follows e.s.cycles.lastJacket n = true) :
    jacketCycle n false false e = handAll
      [⟨e.s.lineMap.role 9, e.s.ring.ownNode, 0x13, 0, bytes2 n ++ [0, 0, 0, 0, 0, 0, 0]⟩]
      { e with s := { e.s with cycles := { e.s.cycles with lastJacket := some n } } } := by
  let x : Ev := { e with s := { e.s with cycles := { e.s.cycles with lastJacket := some n } } }
  have hpassed : continuity .jacketer n e = x := by
    have hok : inSequence (e.s.cycles.last .jacketer) n = true := (inSequence_eq ..).trans hseq
    rw [continuity, hok]
    rfl
  have hkept : decide (x.s.queues.aq.length < e.s.queues.aq.length) = false :=
    decide_eq_false (Nat.lt_irrefl _)
  have hdecided : jacketCycle n false false e = endCycle e.s.queues (decide (x.s.queues.aq.length < e.s.queues.aq.length))
      ⟨e.s.lineMap.role 9, e.s.ring.ownNode, 0x13, 0, bytes2 n ++ [0, 0, 0, 0, 0, 0, 0]⟩ [] x := by
    rw [jacketCycle, hpassed, reconcileAq_nothing (e := x) haq]
    dsimp only
    rw [reconcileJq_nothing (e := x) hjq]
    rfl
  rw [hdecided, hkept]
  exact endCycle_idle (e := x) rfl

/-- The CYCLE of a jacketer that has neither book nor jacket, as the jacketer takes it (R56). -/
theorem cycleTaken_idle (n : Word) (e : Ev) :
    cycleTaken .jacketer (9 :: bytes2 n ++ [0]) e = jacketCycle n false false e := by
  have hn : wordAt (9 :: bytes2 n ++ [0]) 1 = n := wordAt_append_bytes2 [9] n
  have hflags : byteAt (9 :: bytes2 n ++ [0]) 3 = 0 := rfl
  rw [cycleTaken, hn, hflags]
  rfl

/-! ### The statement's parts -/

/-- One message at a full queue (R154, R157). -/
theorem hand_full_eq {m : Message} {e : Ev} {full : State} (hfull : 32 ≤ e.s.ring.outbound.length)
    (hf : full = { e.s with ring := if m.kind = 0x30 ∧ m.tag = 15 then e.s.ring.startTimer else e.s.ring }) :
    (hand m e).s = (full.logging .outboundFull 0 0 0
        (BitVec.ofNat 16 (256 * m.kind.toNat + m.dst.toNat))).caused .outboundFull
      ∧ (hand m e).feeds = e.feeds ++ full.causeFeeds := by
  have hx : (if isProof15 m then { e with s := { e.s with ring := e.s.ring.startTimer } } else e : Ev)
      = { e with s := full } := by
    rw [hf]
    by_cases hp : m.kind = 0x30 ∧ m.tag = 15
    · rw [if_pos ((isProof15_iff m).mpr hp), if_pos hp]
    · rw [if_neg fun hn => hp ((isProof15_iff m).mp hn), if_neg hp]
  rw [hand_dropped hfull hx.symm, raiseCause_s, raiseCause_feeds, kindDst_eq]
  exact ⟨rfl, rfl⟩

theorem exec_disarm_full {h : Envelope} {arg : Byte} {s : State} (hfull : 32 ≤ s.ring.outbound.length) (ho : s.obeys h) :
    let u := { s.arrived with titles := { s.arrived.titles with armed := false } }
    exec (.disarm h [arg]) s = .next (s.turningAway u [u.okReply h.tag]) := by
  intro u
  have hexec : exec (.disarm h [arg]) s = .next (finish (handAll [u.okReply h.tag] { s.arrival with s := u })) :=
    (exec_carried rfl s).trans (congrArg Host.Outcome.next (receive_request (r := .disarm) ho arg))
  have hlen : 32 ≤ s.arrived.ring.outbound.length := by rwa [State.arrived_outbound]
  exact exec_full hexec rfl hlen ((State.arrived_phase s).trans ho.1) (forall_singleton_not_proof rfl)
    (Ev.owes_of_eq s.arrival_owes rfl rfl)

theorem exec_halt_full {h : Envelope} {arg : Byte} {s : State} (hfull : 32 ≤ s.ring.outbound.length) (ho : s.obeys h)
    (hstate : s.arrived.rc.state = .run ∨ s.arrived.rc.state = .drain) :
    let v := s.arrived.caused .master
    exec (.halt h [arg]) s = .next (s.turningAway v (v.okReply h.tag :: s.arrived.causeOrders)) := by
  intro v
  have hraised : ctrlRequest .halt h.tag arg s.arrival = handAll [v.okReply h.tag] (raiseCause .master s.arrival) := by
    have hanswer : ctrlHalt h.tag s.arrival = answer h.tag .ok .none (raiseCause .master s.arrival) := if_pos hstate
    rw [ctrlRequest, hanswer, answer, raiseCause_s]
    rfl
  have horders : (raiseCause .master s.arrival).feedMessages = s.arrived.causeOrders :=
    (Ev.comesTo_raiseCause .master s.arrival).feeds
  have hexec : exec (.halt h [arg]) s = .next (finish (handAll [v.okReply h.tag] (raiseCause .master s.arrival))) := by
    rw [← hraised]
    exact (exec_carried rfl s).trans (congrArg Host.Outcome.next (receive_request (r := .halt) ho arg))
  have hlen : 32 ≤ v.ring.outbound.length := by
    rw [State.caused_ring, State.arrived_outbound]
    exact hfull
  have hphase : v.phase = .running := (State.caused_phase ..).trans ((State.arrived_phase s).trans ho.1)
  have hdone := exec_full hexec (raiseCause_s ..) hlen hphase (forall_singleton_not_proof rfl)
    (Ev.owes_raiseCause s.arrival_owes _)
  rwa [horders] at hdone

theorem exec_idleCycle_full {h : Envelope} {n : Word} {s : State} (hfull : 32 ≤ s.ring.outbound.length)
    (ht : s.takes (h.message 0x02 (9 :: bytes2 n ++ [0]))) :
    let x := s.heard (h.message 0x02 (9 :: bytes2 n ++ [0]))
    x.rc.state ≠ .config → x.plays h.src 9 → x.queues.aq = [] → x.queues.jq = [] →
    follows x.cycles.lastJacket n = true →
    exec (.jacketCycle h (9 :: bytes2 n ++ [0])) s
      = .next (s.turningAway { x with cycles := { x.cycles with lastJacket := some n } }
        [⟨x.lineMap.role 9, x.ring.ownNode, 0x13, 0, bytes2 n ++ [0, 0, 0, 0, 0, 0, 0]⟩]) := by
  intro x hrc hplays haq hjq hseq
  have hcycle := exec_cycle (m := .jacketer) (c := .jacketCycle h (9 :: bytes2 n ++ [0])) (exec_carried rfl s) ht hrc rfl
    rfl hplays
  have hlen : 32 ≤ x.ring.outbound.length := by rwa [State.heard_outbound]
  have hphase : x.phase = .running := (State.heard_phase ..).trans ht.1.1
  rw [cycleTaken_idle, jacketCycle_idle haq hjq hseq] at hcycle
  exact exec_full hcycle rfl hlen hphase (forall_singleton_not_proof rfl) (Ev.owes_of_eq (s.hearing_owes _) rfl rfl)

theorem exec_malformedSight_full {h : Envelope} {s : State} (hfull : 32 ≤ s.ring.outbound.length)
    (ht : s.takes (h.message 0x01 [])) :
    let x := s.heard (h.message 0x01 [])
    x.rc.state ≠ .config → exec (.blockSight h []) s = .next (s.turningAway (x.logging .badSighting 0 0 0 1) []) := by
  intro x hrc
  have hbad : sight h.src [] (s.hearing (h.message 0x01 []))
      = logAlert .badSighting 0 0 0 1 (s.hearing (h.message 0x01 [])) :=
    sight_malformed hrc (badSighting_role (.inl rfl))
  have hexec : exec (.blockSight h []) s
      = .next (finish (handAll [] (logAlert .badSighting 0 0 0 1 (s.hearing (h.message 0x01 []))))) :=
    (exec_carried rfl s).trans (congrArg Host.Outcome.next ((receive_takes ht rfl).trans (congrArg finish hbad)))
  have hlen : 32 ≤ x.ring.outbound.length := by rwa [State.heard_outbound]
  exact exec_full hexec rfl hlen ((State.heard_phase ..).trans ht.1.1) nofun (Ev.owes_logAlert (s.hearing_owes _) ..)

/-- Settles O15: the two cases of the hand-over, and four events that come to handing messages over to a full queue. -/
theorem fullOutboundQueueDrops : Obligations.FullOutboundQueueDrops := by
  refine ⟨fun m e => ⟨fun hroom => ?_, fun hfull => ?_⟩, fun h arg s hfull => ⟨fun ho => ?_, fun n ht => ?_, fun ht => ?_⟩⟩
  · rw [hand_room hroom]
    exact ⟨rfl, rfl⟩
  · exact hand_full_eq hfull rfl
  · exact ⟨exec_disarm_full hfull ho, exec_halt_full hfull ho⟩
  · exact exec_idleCycle_full hfull ht
  · exact exec_malformedSight_full hfull ht

end Sys2Proof.Machine
end

section
/-! SUPPORT. Which stored values are in range (R170). -/

namespace Sys2Proof.Machine

theorem Calibration.inRange_iff (c : Calibration) : c.inRange = true ↔
    -2048 ≤ c.ofs ∧ c.ofs ≤ 2047 ∧ c.brk ≤ 16383 ∧ (1 ≤ c.g1 ∧ c.g1 ≤ 65535) ∧ (1 ≤ c.g2 ∧ c.g2 ≤ 65535)
      ∧ c.tref ≤ 4095 ∧ (-32768 ≤ c.tco ∧ c.tco ≤ 32767) ∧ (-32768 ≤ c.tso ∧ c.tso ≤ 32767) := by
  simp only [Calibration.inRange, decide_eq_true_eq, and_assoc]

/-- A byte that is a flag is 0 or 1. -/
theorem toNat_le_one_iff (b : Byte) : b.toNat ≤ 1 ↔ b = 0 ∨ b = 1 := by
  constructor
  · intro h
    bv_omega
  · rintro (rfl | rfl) <;> decide

/-- A comparator configuration's values and the order of its thresholds (R103, log 24). -/
theorem ComparatorConfig.inRange_iff (c : ComparatorConfig) : c.inRange = true ↔
    (1 ≤ c.confirm ∧ c.confirm ≤ 4) ∧ (-400 ≤ c.onThreshold ∧ c.onThreshold ≤ 3000)
      ∧ (-400 ≤ c.offThreshold ∧ c.offThreshold ≤ 3000)
      ∧ (c.direction = .above → c.offThreshold ≤ c.onThreshold)
      ∧ (c.direction = .below → c.onThreshold ≤ c.offThreshold) := by
  unfold ComparatorConfig.inRange
  cases c.direction <;> simp [and_assoc]

theorem ComparatorRecord.inRange_iff (c : ComparatorRecord) : c.inRange = true ↔
    (c.direction = 0 ∨ c.direction = 1) ∧ (c.enable = 0 ∨ c.enable = 1) ∧ (1 ≤ c.confirm ∧ c.confirm ≤ 4)
      ∧ (-400 ≤ c.onThreshold ∧ c.onThreshold ≤ 3000) ∧ (-400 ≤ c.offThreshold ∧ c.offThreshold ≤ 3000)
      ∧ (c.direction = 0 → c.offThreshold ≤ c.onThreshold) ∧ (c.direction = 1 → c.onThreshold ≤ c.offThreshold) := by
  rw [ComparatorRecord.inRange, Bool.and_eq_true, decide_eq_true_eq, toNat_le_one_iff, toNat_le_one_iff,
    ComparatorConfig.inRange_iff, and_assoc]
  refine and_congr_right fun hdirection => ?_
  rcases hdirection with h | h <;> simp [ComparatorRecord.config, h]

theorem comparatorsInRange_iff (t : Table ComparatorRecord 4) :
    comparatorsInRange t = true ↔ ∀ i, (t.get i).inRange = true := Table.all_iff t _

theorem lineMapInRange_iff (m : LineMap) : lineMapInRange m = true ↔ ∀ i, (m.get i).toNat ≤ 62 :=
  (Table.all_iff m _).trans (forall_congr' fun _ => decide_eq_true_iff)

theorem Recipe.inRange_iff (r : Recipe) : r.inRange = true ↔
    r.filmLeft ≤ 500 ∧ r.filmRight ≤ 500 ∧ (1 ≤ r.shot ∧ r.shot ≤ 65535) ∧ r.margin ≤ 200 := by
  simp only [Recipe.inRange, decide_eq_true_eq, and_assoc]

theorem ProfileRecord.inRange_iff (p : ProfileRecord) : p.inRange = true ↔ ∀ e ∈ p.entries, e.heat = 0 ∨ e.heat = 1 := by
  simp only [ProfileRecord.inRange, List.all_eq_true, decide_eq_true_eq, toNat_le_one_iff]

theorem RecipeGroup.inRange_iff (g : RecipeGroup) : g.inRange = true ↔
    (∀ i, (g.recipes.get i).inRange = true) ∧ ∀ i, (g.profiles.get i).inRange = true := by
  rw [RecipeGroup.inRange, Bool.and_eq_true, Table.all_iff, Table.all_iff]

theorem protectInRange_iff (v : Byte) : protectInRange v = true ↔ v.toNat ≤ 3 := decide_eq_true_iff

/-! ### The end of an event before the load is over -/

/-- Until the load is over an event hands over the ALERT it owes and the transmitter begins nothing (R166, R170). -/
theorem finish_loading {e : Ev} (hp : e.s.phase ≠ .running) (hf : e.feeds = [])
    (hroom : e.s.ring.outbound.length + e.alertsDue ≤ 32) :
    finish e = { e.s with ring := { e.s.ring with
      outbound := e.s.ring.outbound ++ List.replicate e.alertsDue (ownMessage e.s .alert 0 0 [1]) } } := by
  let sent := List.replicate e.alertsDue (ownMessage e.s .alert 0 0 [1])
  have hlen : e.s.ring.outbound.length + sent.length ≤ 32 := by rwa [List.length_replicate]
  have hsent : flushAlerts e = ({ e with alertsDue := 0 } : Ev).joined sent := handAll_room (e := { e with alertsDue := 0 }) hlen
  have hquiet : flushFeeds (flushAlerts e) = flushAlerts e := flushFeeds_nil (by rw [hsent]; exact hf)
  have hdone : flushAlerts (({ e with alertsDue := 0 } : Ev).joined sent) = ({ e with alertsDue := 0 } : Ev).joined sent := rfl
  rw [finish, flushFeeds_nil hf, flushFeeds_nil hf, hquiet, hsent, hdone]
  exact if_neg hp

/-! ### The records of the load -/

/-- The record a judgement of group `number` logs (R170). -/
def Judged.record (number : Word) (stamp : BitVec 32) : Judged → List Alert
  | .clean => []
  | .fixed => [⟨.storeFixed, 0, 0, 0, stamp, number⟩]
  | .bad => [⟨.storeBad, 0, 0, 0, stamp, number⟩]

theorem StoreGroup.records_eq {α : Type} (g : StoreGroup α) (f : α → Bool) (number : Word) (stamp : BitVec 32) :
    g.records f number stamp = (g.judge f).record number stamp := by
  unfold StoreGroup.records StoreGroup.judge
  cases g.marker <;> cases f g.content <;> cases g.health <;> rfl

/-- The records of the groups from `number` on, in group order (R170). -/
def judgedRecords (stamp : BitVec 32) : Nat → List Judged → List Alert
  | _, [] => []
  | n, j :: js => j.record (BitVec.ofNat 16 n) stamp ++ judgedRecords stamp (n + 1) js

/-- With room a judgement joins its record to the log and changes nothing else but ATTN. -/
theorem judgedAlert_s {e : Ev} (n : Nat) (j : Judged) (hroom : e.s.mu.log.length < 32) :
    ∃ pin, (judgedAlert n j e).s = { e.s with mu := { e.s.mu with
      log := e.s.mu.log ++ j.record (BitVec.ofNat 16 n) e.s.cycles.stamp
      attn := pin } } := by
  have logged (code : AlertCode) : (logAlert code 0 0 0 (BitVec.ofNat 16 n) e).s = { e.s with mu := { e.s.mu with
      log := e.s.mu.log ++ [⟨code, 0, 0, 0, e.s.cycles.stamp, BitVec.ofNat 16 n⟩]
      attn := if e.s.mu.log = [] then .high else e.s.mu.attn } } :=
    congrArg (fun m => ({ e.s with mu := m } : State)) (if_pos hroom)
  cases j with
  | clean => exact ⟨e.s.mu.attn, by rw [Judged.record, List.append_nil]; rfl⟩
  | fixed => exact ⟨_, logged .storeFixed⟩
  | bad => exact ⟨_, logged .storeBad⟩

theorem Judged.record_length (number : Word) (stamp : BitVec 32) (j : Judged) : (j.record number stamp).length ≤ 1 := by
  cases j with
  | clean => exact Nat.zero_le 1
  | fixed => exact Nat.le_refl 1
  | bad => exact Nat.le_refl 1

/-- The judgements in turn, with room in the log for each. -/
theorem judgedAlerts_s (js : List Judged) (n : Nat) {e : Ev} (hroom : e.s.mu.log.length + js.length ≤ 32) :
    ∃ pin, (judgedAlerts n js e).s = { e.s with mu := { e.s.mu with
      log := e.s.mu.log ++ judgedRecords e.s.cycles.stamp n js
      attn := pin } } := by
  induction js generalizing n e with
  | nil => exact ⟨e.s.mu.attn, by rw [judgedRecords, List.append_nil]; rfl⟩
  | cons j js ih =>
    rw [List.length_cons] at hroom
    obtain ⟨pin, hs⟩ := judgedAlert_s (e := e) n j (by omega)
    have hfits : (judgedAlert n j e).s.mu.log.length + js.length ≤ 32 := by
      have hone := Judged.record_length (BitVec.ofNat 16 n) e.s.cycles.stamp j
      rw [hs, List.length_append]
      omega
    obtain ⟨pin', hs'⟩ := ih (n + 1) hfits
    refine ⟨pin', ?_⟩
    rw [judgedAlerts, hs', hs, judgedRecords, List.append_assoc]

theorem judgedAlerts_feeds (js : List Judged) (n : Nat) (e : Ev) : (judgedAlerts n js e).feeds = e.feeds := by
  induction js generalizing n e with
  | nil => rfl
  | cons j js ih =>
    rw [judgedAlerts, ih]
    cases j <;> rfl

theorem Ev.owes_judgedAlerts {before : List Alert} (js : List Judged) (n : Nat) {e : Ev} (h : e.owes before) :
    (judgedAlerts n js e).owes before := by
  induction js generalizing n e with
  | nil => exact h
  | cons j js ih =>
    refine ih (n + 1) ?_
    cases j with
    | clean => exact h
    | fixed => exact Ev.owes_logAlert h ..
    | bad => exact Ev.owes_logAlert h ..

/-! ### The power-on load -/

/-- The load of a held part, up to the values it takes: the judgements logged, and the ALERT they form (R166, R170). -/
theorem powerOnLoad_eq {cells : CellReport} {s : State} (hp : s.phase = .held) (hmu : s.mu = ⟨[], false, .low⟩)
    (hout : s.ring.outbound = []) :
    let g := s.store.aged cells
    let w := ({ s with phase := .loading, store := g } : State).withSettings g.loaded
    ∃ u : State, (∃ pin, u = { w with mu := ⟨judgedRecords s.cycles.stamp 1 g.judgements, false, pin⟩ })
      ∧ u.mu.sound
      ∧ powerOnLoad cells s = { u with ring := { u.ring with outbound := s.alertFor u } } := by
  intro g w
  have hwmu : w.mu = ⟨[], false, .low⟩ := hmu
  have hlog : w.mu.log = [] := by rw [hwmu]
  have hfits : (Ev.start w).s.mu.log.length + g.judgements.length ≤ 32 := by
    change w.mu.log.length + 7 ≤ 32
    rw [hlog]
    decide
  obtain ⟨pin, hs⟩ := judgedAlerts_s (e := Ev.start w) g.judgements 1 hfits
  have howes : (judgedAlerts 1 g.judgements (Ev.start w)).owes s.mu.log := Ev.owes_judgedAlerts _ 1 (Ev.owes_start w)
  have hsound : (judgedAlerts 1 g.judgements (Ev.start w)).s.mu.sound := by
    refine judgedAlerts_induct (P := fun x => x.mu.sound) (fun _ _ _ hx => Management.sound_logged hx _) 1 _ ?_
    change w.mu.sound
    rw [hwmu]
    exact ⟨Nat.zero_le _, iff_of_false nofun (fun hn => hn rfl), nofun⟩
  have hfeeds : (judgedAlerts 1 g.judgements (Ev.start w)).feeds = [] := judgedAlerts_feeds ..
  have hload : powerOnLoad cells s = finish (judgedAlerts 1 g.judgements (Ev.start w)) := if_pos hp
  generalize judgedAlerts 1 g.judgements (Ev.start w) = e at hs howes hsound hfeeds hload
  have hstate : e.s = { w with mu := ⟨judgedRecords s.cycles.stamp 1 g.judgements, false, pin⟩ } := by
    rw [hs]
    change ({ w with mu := ⟨w.mu.log ++ _, w.mu.overrun, pin⟩ } : State) = _
    rw [hwmu]
    rfl
  refine ⟨e.s, ⟨pin, hstate⟩, hsound, ?_⟩
  have hphase : e.s.phase ≠ .running := by
    rw [hstate]
    exact (by decide : Phase.loading ≠ .running)
  have houtbound : e.s.ring.outbound = [] := by
    rw [hstate]
    exact hout
  have hdue := Ev.owes_alertFor howes
  have hone : e.alertsDue ≤ 1 := by
    have hlength := State.alertFor_length s e.s
    rwa [← hdue, List.length_replicate] at hlength
  rw [hload, finish_loading hphase hfeeds (by rw [houtbound, List.length_nil]; omega), hdue, houtbound,
    List.nil_append]

end Sys2Proof.Machine
end

section
/-! SUPPORT. The working copies of the power-on load (R170, R171). -/

namespace Sys2Proof.Machine

/-! ### The working copies -/

/-- The default profile has pressure 0 and heat clear at every position (R94). -/
theorem Profile.zero_record_entries : ∀ e ∈ Profile.zero.record.profile.entries, e = ⟨0, false⟩ := by decide

/-- Settles O4: what is in range is decided field by field; each working copy is its group's content or default, and the
judgements are logged before the ring opens. -/
theorem powerOnLoadTakesSettings : Obligations.PowerOnLoadTakesSettings := by
  refine ⟨⟨stationNode_iff, Calibration.inRange_iff, fun t => ?_, Limits.inRange_iff, lineMapInRange_iff, fun g => ?_,
    protectInRange_iff⟩, fun cells s hp hmu hout => ?_⟩
  · rw [comparatorsInRange_iff]
    exact forall_congr' fun i => ComparatorRecord.inRange_iff _
  · simp only [RecipeGroup.inRange_iff, Recipe.inRange_iff, ProfileRecord.inRange_iff]
  · intro g
    obtain ⟨u, ⟨pin, hu⟩, ⟨-, hattn, -⟩, hload⟩ := powerOnLoad_eq (cells := cells) hp hmu hout
    refine ⟨_, congrArg Host.Outcome.next hload, ?_⟩
    subst hu
    refine ⟨fun h => StoreGroup.load_usable _ h, fun h => StoreGroup.load_bad _ h, fun h => StoreGroup.load_usable _ h,
      fun h => StoreGroup.load_bad _ h, fun h => ?_, fun h => ?_, fun h => StoreGroup.load_usable _ h,
      fun h => StoreGroup.load_bad _ h, fun h => StoreGroup.load_usable _ h, fun h i => ?_, fun h => ?_, fun h => ?_,
      fun h => ?_, fun h => ?_, ?_, hattn, ?_, ?_⟩
    · exact congrArg (fun t : Table ComparatorRecord 4 => t.map fun r => Comparator.off r.config)
        (StoreGroup.load_usable _ h)
    · exact congrArg (fun t : Table ComparatorRecord 4 => (t.map fun r => Comparator.off r.config).list)
        (StoreGroup.load_bad _ h)
    · exact (congrArg (fun m : LineMap => m.get i) (StoreGroup.load_bad _ h)).trans (Table.get_fill 9 0 i)
    · have hloaded := StoreGroup.load_usable Settings.default.recipes h
      refine ⟨congrArg RecipeGroup.recipes hloaded, fun i => ?_⟩
      exact congrArg Profile.entries ((congrArg (fun r : RecipeGroup => (r.profiles.map ProfileRecord.profile).get i)
        hloaded).trans (Table.get_map ..))
    · have hloaded := StoreGroup.load_bad Settings.default.recipes h
      refine ⟨fun i => ?_, fun i => ?_⟩
      · exact (congrArg (fun r : RecipeGroup => r.recipes.get i) hloaded).trans (Table.get_fill 32 _ i)
      · have hzero := (congrArg (fun r : RecipeGroup => (r.profiles.map ProfileRecord.profile).get i) hloaded).trans
          ((Table.get_map ..).trans (congrArg ProfileRecord.profile (Table.get_fill 64 Profile.zero.record i)))
        exact hzero ▸ Profile.zero_record_entries
    · exact (congrArg (fun v => (protectLevel v).val) (StoreGroup.load_usable _ h)).trans (protectLevel_val h.2.2)
    · exact congrArg protectLevel (StoreGroup.load_bad _ h)
    · simp only [StoreGroup.records_eq, List.append_assoc]
      simp only [judgedRecords, Store.judgements, List.append_nil]
      rfl
    · exact State.alertFor_eq rfl rfl
    · rw [hmu]
      rfl

end Sys2Proof.Machine
end
